-- ==== Sys2Proof/Word.lean ====
section
/-! DEFINITION. The word types of the HVSP core (`00_scope.md` rules R5, R6): a data value is 8 bits, a host
command word 24 bits, the key `d ++ i` of a frame 16 bits. All values are unsigned. -/

namespace Sys2Proof

/-- A `u8` of the spec (rule R6): a fuse byte, a signature byte, a frame's data or instruction byte, a register. -/
abbrev Byte := BitVec 8

/-- A host command word (rule R79). -/
abbrev CmdWord := BitVec 24

/-- The key of a frame in the opcode table, `d` in bits 15:8 and `i` in bits 7:0 (rule R74). -/
abbrev FrameKey := BitVec 16

/-- The address of a host register (rules R5, R36). -/
abbrev RegAddr := BitVec 8

end Sys2Proof
end

