-- ==== Sys2Proof/Syntax.lean ====
section
/-! DEFINITION. The instructions: one constructor of `Instr` for each row of `spec/opcode_table.json`. The 15 rows
of format HOSTCMD are the host's command words (`30_encoding.md` rule R81); the 22 rows of format HVSP_FRAME are the
frame constants the block's own sequencer sends (rule R75), named once more in the form of rule R75's table
(`FrameName`), which is how the sequencer's position names them. -/

namespace Sys2Proof

/-- A fuse selector s of rule R7: low, high, extended. -/
inductive Fuse where
  | low
  | high
  | ext
  deriving DecidableEq, Repr, Inhabited

/-- A signature index j in 0, 1, 2 (rule R7). -/
abbrev SigIndex := Fin 3

/-- The instructions of the opcode table, in the table's order. -/
inductive Instr where
  /-- ENTER (rule R142) -/
  | enter
  /-- EXIT (rule R143) -/
  | exit
  /-- FRAME d, i (rule R112) -/
  | frame (d i : Byte)
  /-- RDFUSE L (rule R123) -/
  | rdfuseL
  /-- RDFUSE H (rule R123) -/
  | rdfuseH
  /-- RDFUSE E (rule R123) -/
  | rdfuseE
  /-- RDSIG 0 (rule R124) -/
  | rdsig0
  /-- RDSIG 1 (rule R124) -/
  | rdsig1
  /-- RDSIG 2 (rule R124) -/
  | rdsig2
  /-- WRFUSE L, v (rule R129) -/
  | wrfuseL (v : Byte)
  /-- WRFUSE H, v (rule R129) -/
  | wrfuseH (v : Byte)
  /-- WRFUSE E, v (rule R129) -/
  | wrfuseE (v : Byte)
  /-- IDENT (rule R166) -/
  | ident
  /-- READALL (rule R167) -/
  | readall
  /-- RESTORE (rule R168) -/
  | restore
  /-- frame (0x04, 0x4C) -/
  | enterFuseRead
  /-- frame (0x08, 0x4C) -/
  | enterSigRead
  /-- frame (0x40, 0x4C) -/
  | enterFuseWrite
  /-- frame (v, 0x2C) -/
  | loadData (v : Byte)
  /-- frame (0x00, 0x0C) -/
  | sigSelect0
  /-- frame (0x01, 0x0C) -/
  | sigSelect1
  /-- frame (0x02, 0x0C) -/
  | sigSelect2
  /-- frame (0x00, 0x68), third frame of a signature read -/
  | sigShiftA
  /-- frame (0x00, 0x6C), fourth frame of a signature read -/
  | sigShiftB
  /-- frame (0x00, 0x68) -/
  | fuseSelectL
  /-- frame (0x00, 0x6C) -/
  | fuseShiftL
  /-- frame (0x00, 0x7A) -/
  | fuseSelectH
  /-- frame (0x00, 0x7E) -/
  | fuseShiftH
  /-- frame (0x00, 0x6A) -/
  | fuseSelectE
  /-- frame (0x00, 0x6E) -/
  | fuseShiftE
  /-- frame (0x00, 0x64) -/
  | writeStrobeAL
  /-- frame (0x00, 0x6C) -/
  | writeStrobeBL
  /-- frame (0x00, 0x74) -/
  | writeStrobeAH
  /-- frame (0x00, 0x7C) -/
  | writeStrobeBH
  /-- frame (0x00, 0x66) -/
  | writeStrobeAE
  /-- frame (0x00, 0x6E) -/
  | writeStrobeBE
  /-- frame (0x00, 0x4C), between the two polls of a write -/
  | writeEnd
  deriving DecidableEq, Repr, Inhabited

/-- The names of rule R75's table: the frames the block's transactions send, with their parameters. -/
inductive FrameName where
  | enterFuseRead
  | enterSigRead
  | enterFuseWrite
  | loadData (v : Byte)
  | sigSelect (j : SigIndex)
  | sigShiftA
  | sigShiftB
  | fuseSelect (s : Fuse)
  | fuseShift (s : Fuse)
  | writeStrobeA (s : Fuse)
  | writeStrobeB (s : Fuse)
  | writeEnd
  deriving DecidableEq, Repr, Inhabited

end Sys2Proof
end

