-- ==== Sys2Proof/Config.lean ====
section
/-! DEFINITION. The parameters of the block (`00_scope.md` rule R5), the device catalog's entries
(`43_catalog_workflow.md` rules R160, R161) and the values no rule fixes: the parameters left open and the answers
the pin transport gives (`60_exceptions.md` rule R206). The open values are constants without a body, so that no
proof can rest on one of them. Which parameter values are allowed is `WellFormed.lean`. -/

namespace Sys2Proof

/-- A DeviceDescriptor (rule R160): a 3-byte signature, a default FuseSet and a display name. -/
structure Descriptor where
  sig0 : Byte
  sig1 : Byte
  sig2 : Byte
  defL : Byte
  defH : Byte
  defE : Byte
  name : String
  deriving DecidableEq, Repr, Inhabited

/-- The parameters of rule R5, one field each, before any check. The catalog is the parameter `CATALOG`. -/
structure Params where
  /-- `T_PWR_SETTLE_US` -/
  tPwrSettleUs : Nat
  /-- `T_HV_SETTLE_US` -/
  tHvSettleUs : Nat
  /-- `T_SDO_RELEASE_US` -/
  tSdoReleaseUs : Nat
  /-- `POLL_LIMIT`: `none` is the original unbounded poll -/
  pollLimit : Option Nat
  /-- `POLL_INTERVAL_US`: 0 is no delay event -/
  pollIntervalUs : Nat
  /-- `CATALOG` -/
  catalog : List Descriptor
  /-- `T_CLK_HIGH_MIN_NS`: no rule of the model reads it (rule R111) -/
  tClkHighMinNs : Nat
  /-- `T_CLK_LOW_MIN_NS`: no rule of the model reads it (rule R111) -/
  tClkLowMinNs : Nat
  deriving DecidableEq, Repr

/-- What the pin transport answers to one call (rule R206). One shape serves every call: `fails` says that a
`setOutputs`, `configureDirections` or `readInput` call fails, `level` is the bit a successful `readInput` returns,
`late` is by how many microseconds a `delayMicros(n)` overruns `n` (rule R103). A call reads only what it needs. -/
structure Answer where
  fails : Bool
  level : Bool
  late : Nat
  deriving DecidableEq, Repr, Inhabited

namespace Config

/-- The one catalog entry the source gives (rule R161). -/
def attiny85 : Descriptor :=
  { sig0 := 0x1E, sig1 := 0x93, sig2 := 0x0B, defL := 0x62, defH := 0xDF, defE := 0xFF, name := "ATtiny85" }

/-- `CATALOG_MIN` (rule R161). -/
def catalogMin : List Descriptor := [attiny85]

/-- OPEN (rule R5, decision D7): `none` stands for an unbounded poll, `some n` for `POLL_LIMIT = some (n + 1)`. -/
opaque pollLimitPred : Option Nat

/-- OPEN (rule R5, decision D7): `POLL_INTERVAL_US`. -/
opaque pollIntervalUs : Nat

/-- OPEN (rule R5, decision D24): what the builder puts before the entry of rule R161 in the catalog. -/
opaque catalogBefore : List Descriptor

/-- OPEN (rule R5, decision D24): what the builder puts after the entry of rule R161 in the catalog. -/
opaque catalogAfter : List Descriptor

/-- FREE (rules R102, R103, R206, decision D27): the answers of the pin transport that no written-down list of
answers gives, numbered by the counter `State.draws`. -/
opaque freeAnswer : Nat → Answer

end Config
end Sys2Proof
end

