-- ==== Sys2Proof/WellFormed.lean ====
section
/-! DEFINITION. What is well formed: the fields of a host command word (`30_encoding.md` rules R79, R82) and the
parameters of the block (`00_scope.md` rule R5, `43_catalog_workflow.md` rules R160 to R162). Every term of `Instr`
is well formed by its type: its operands are `u8` values, which rule R80 uses unchanged. -/

namespace Sys2Proof

/-- The fields of a host command word (rule R79): `OP`, `SEL`, `Z`, `A`, `B`. -/
structure CmdFields where
  op : BitVec 4
  sel : BitVec 2
  z : BitVec 2
  a : Byte
  b : Byte
  deriving DecidableEq, Repr

namespace CmdFields

/-- Rule R82: `OP` is one of the nine opcodes of rule R81. -/
def opKnown (f : CmdFields) : Bool := decide (1 ≤ f.op.toNat) && decide (f.op.toNat ≤ 9)

/-- Rule R82: `Z` is 0. -/
def zClear (f : CmdFields) : Bool := f.z == 0

/-- Rules R81, R82: `SEL` is a fuse selector or a signature index for RDFUSE, RDSIG and WRFUSE, and 0 for any other
opcode. -/
def selAllowed (f : CmdFields) : Bool :=
  if f.op = 4 ∨ f.op = 5 ∨ f.op = 6 then f.sel != 3 else f.sel == 0

/-- Rules R81, R82: `A` is 0 unless the opcode uses it (FRAME and WRFUSE do). -/
def aAllowed (f : CmdFields) : Bool := decide (f.op = 3 ∨ f.op = 6) || f.a == 0

/-- Rules R81, R82: `B` is 0 unless the opcode uses it (FRAME does). -/
def bAllowed (f : CmdFields) : Bool := decide (f.op = 3) || f.b == 0

/-- A command word's fields are legal: none of rule R82's conditions holds. -/
def legal (f : CmdFields) : Bool := f.opKnown && f.zClear && f.selAllowed && f.aAllowed && f.bAllowed

end CmdFields

/-- Why a set of parameters is refused (rules R5, R162, R225). -/
inductive ConfigReject where
  /-- a settle delay is below its lower bound (rules R5, R225) -/
  | delayTooShort
  /-- `POLL_LIMIT = some 0` (rule R5) -/
  | pollLimitZero
  /-- a clock time is below 220 ns (rule R5) -/
  | clockTooFast
  /-- the catalog has no entry or more than 16 (rule R162) -/
  | catalogSize
  /-- a catalog entry has the all-zero signature (rule R162) -/
  | catalogZeroSignature
  /-- the entry of rule R161 is missing (rule R5) -/
  | catalogLacksAttiny85
  deriving DecidableEq, Repr

/-- An entry's signature is all zero (rule R162). -/
def Descriptor.zeroSignature (e : Descriptor) : Bool := e.sig0 == 0 && e.sig1 == 0 && e.sig2 == 0

namespace Params

/-- Rule R5: the settle delays are at least 20, 10 and 300 microseconds. -/
def delaysLong (p : Params) : Bool :=
  decide (20 ≤ p.tPwrSettleUs) && decide (10 ≤ p.tHvSettleUs) && decide (300 ≤ p.tSdoReleaseUs)

/-- Rule R5: `POLL_LIMIT` is `none` or `some n` with n ≥ 1. -/
def pollLimitPositive (p : Params) : Bool := p.pollLimit != some 0

/-- Rule R5: both clock times are at least 220 ns. -/
def clockSlow (p : Params) : Bool := decide (220 ≤ p.tClkHighMinNs) && decide (220 ≤ p.tClkLowMinNs)

/-- Rule R162: 1 to 16 entries. -/
def catalogSized (p : Params) : Bool := decide (1 ≤ p.catalog.length) && decide (p.catalog.length ≤ 16)

/-- Rule R162: no entry has the all-zero signature. -/
def catalogNonzero (p : Params) : Bool := p.catalog.all (fun e => !e.zeroSignature)

/-- Rules R5, R161: the catalog contains the source's entry. -/
def catalogHasAttiny85 (p : Params) : Bool := decide (Config.attiny85 ∈ p.catalog)

/-- All of rule R5's constraints. -/
def wf (p : Params) : Bool :=
  p.delaysLong && p.pollLimitPositive && p.clockSlow && p.catalogSized && p.catalogNonzero && p.catalogHasAttiny85

/-- The first constraint of rule R5 that a set of parameters breaks. -/
def reject (p : Params) : Option ConfigReject :=
  if !p.delaysLong then some .delayTooShort
  else if !p.pollLimitPositive then some .pollLimitZero
  else if !p.clockSlow then some .clockTooFast
  else if !p.catalogSized then some .catalogSize
  else if !p.catalogNonzero then some .catalogZeroSignature
  else if !p.catalogHasAttiny85 then some .catalogLacksAttiny85
  else none

theorem wf_of_reject_none {p : Params} (h : p.reject = none) : p.wf = true := by
  unfold reject at h
  split at h <;> try cases h
  split at h <;> try cases h
  split at h <;> try cases h
  split at h <;> try cases h
  split at h <;> try cases h
  split at h <;> try cases h
  simp_all [wf]

end Params

/-- The parameters the block was built with: values that meet rule R5, so that a block with a refused catalog or a
delay below its bound cannot be written down (rules R162, R225). -/
structure Setup where
  params : Params
  ok : params.wf = true
  deriving DecidableEq, Repr

namespace Setup

/-- Building a block: the parameters, or the reason they are refused (rule R162: a model refuses a catalog that
breaks its conditions). -/
def configure (p : Params) : Except ConfigReject Setup :=
  match h : p.reject with
  | none => .ok ⟨p, Params.wf_of_reject_none h⟩
  | some r => .error r

/-- A builder's catalog that meets rules R161 and R162, from any two lists of further entries: entries with the
all-zero signature and entries past the sixteenth are left out. Every allowed catalog is of this form. -/
def catalogWith (before after : List Descriptor) : List Descriptor :=
  let front := (before.filter (fun e => !e.zeroSignature)).take 15
  front ++ Config.attiny85 :: (after.filter (fun e => !e.zeroSignature)).take (15 - front.length)

/-- The parameters of the block under study: the decided values of rule R5, and the open ones left open. -/
def openParams : Params :=
  { tPwrSettleUs := 60
    tHvSettleUs := 10
    tSdoReleaseUs := 300
    pollLimit := Config.pollLimitPred.map (· + 1)
    pollIntervalUs := Config.pollIntervalUs
    catalog := catalogWith Config.catalogBefore Config.catalogAfter
    tClkHighMinNs := 220
    tClkLowMinNs := 220 }

theorem openParams_wf : openParams.wf = true := by
  have hlim : openParams.pollLimitPositive = true := by
    unfold Params.pollLimitPositive openParams
    cases Config.pollLimitPred <;> simp
  have hsize : openParams.catalogSized = true := by
    simp [Params.catalogSized, openParams, catalogWith]; omega
  have hzero : openParams.catalogNonzero = true := by
    have hmem : ∀ (l : List Descriptor) (n : Nat) (e : Descriptor),
        e ∈ (l.filter (fun e => !e.zeroSignature)).take n → e.zeroSignature = false := by
      intro l n e he
      simpa using (List.mem_filter.mp (List.mem_of_mem_take he)).2
    simp only [Params.catalogNonzero, openParams, catalogWith, List.all_append, List.all_cons, Bool.and_eq_true,
      List.all_eq_true, Bool.not_eq_true']
    exact ⟨fun e he => hmem _ _ e he, by decide, fun e he => hmem _ _ e he⟩
  have hhas : openParams.catalogHasAttiny85 = true := by
    simp [Params.catalogHasAttiny85, openParams, catalogWith]
  simp only [Params.wf, hlim, hsize, hzero, hhas]
  decide

/-- The block under study (rule R5). -/
def standard : Setup := ⟨openParams, openParams_wf⟩

end Setup
end Sys2Proof
end

