-- ==== Sys2Proof/Decode.lean ====
section
/-! DEFINITION. Encodings (`30_encoding.md`): the fields of a host command word and its decoder, total on all 24-bit
words and rejecting by name; the frame constants and the names their keys stand for; and after them the encoder,
written from the same tables. -/

namespace Sys2Proof

/-! ## Host command words -/

/-- The fields of a command word, `OP = w[23:20]`, `SEL = w[19:18]`, `Z = w[17:16]`, `A = w[15:8]`, `B = w[7:0]`
(rule R79). -/
def fieldsOf (w : CmdWord) : CmdFields :=
  { op := w.extractLsb' 20 4, sel := w.extractLsb' 18 2, z := w.extractLsb' 16 2,
    a := w.extractLsb' 8 8, b := w.extractLsb' 0 8 }

/-- The command word with the given fields (rule R79). -/
def wordOf (f : CmdFields) : CmdWord := f.op ++ f.sel ++ f.z ++ f.a ++ f.b

/-- Why a command word, or a frame key, is no instruction (rule R82). -/
inductive Reject where
  /-- `OP` is 0x0 or 0xA to 0xF -/
  | opcode
  /-- `Z` is not 0 -/
  | zField
  /-- `SEL` is 3 for RDFUSE, RDSIG or WRFUSE -/
  | selReserved
  /-- `SEL` is not 0 and the opcode does not use it -/
  | selUnused
  /-- `A` is not 0 and the opcode does not use it -/
  | aUnused
  /-- `B` is not 0 and the opcode does not use it -/
  | bUnused
  /-- a 16-bit key that is none of rule R75's frame constants -/
  | noFrameConstant
  deriving DecidableEq, Repr

/-- A command without operands: `SEL`, `A` and `B` must be 0 (rule R81). -/
def bareCommand (f : CmdFields) (i : Instr) : Except Reject Instr :=
  if f.sel ≠ 0 then .error .selUnused
  else if f.a ≠ 0 then .error .aUnused
  else if f.b ≠ 0 then .error .bUnused
  else .ok i

/-- A command whose `SEL` chooses among three (rule R80): 0, 1, 2, and 3 reserved. -/
def selectThree (sel : BitVec 2) (i0 i1 i2 : Instr) : Except Reject Instr :=
  if sel = 0 then .ok i0 else if sel = 1 then .ok i1 else if sel = 2 then .ok i2 else .error .selReserved

/-- Rules R79 to R83: the instruction a host command word stands for, or why it is illegal. -/
def decode (w : CmdWord) : Except Reject Instr :=
  let f := fieldsOf w
  if f.z ≠ 0 then .error .zField
  else match f.op.toNat with
    | 1 => bareCommand f .enter
    | 2 => bareCommand f .exit
    | 3 => if f.sel ≠ 0 then .error .selUnused else .ok (.frame f.a f.b)
    | 4 =>
      if f.a ≠ 0 then .error .aUnused
      else if f.b ≠ 0 then .error .bUnused
      else selectThree f.sel .rdfuseL .rdfuseH .rdfuseE
    | 5 =>
      if f.a ≠ 0 then .error .aUnused
      else if f.b ≠ 0 then .error .bUnused
      else selectThree f.sel .rdsig0 .rdsig1 .rdsig2
    | 6 =>
      if f.b ≠ 0 then .error .bUnused
      else selectThree f.sel (.wrfuseL f.a) (.wrfuseH f.a) (.wrfuseE f.a)
    | 7 => bareCommand f .ident
    | 8 => bareCommand f .readall
    | 9 => bareCommand f .restore
    | _ => .error .opcode

/-! ## Frame constants -/

/-- The select instruction of a fuse read (rule R76). -/
def selectInstr : Fuse → Byte
  | .low => 0x68#8
  | .high => 0x7A#8
  | .ext => 0x6A#8

/-- The shift instruction of a fuse read (rule R76). -/
def shiftInstr : Fuse → Byte
  | .low => 0x6C#8
  | .high => 0x7E#8
  | .ext => 0x6E#8

/-- Strobe A of a fuse write (rule R77). -/
def strobeA : Fuse → Byte
  | .low => 0x64#8
  | .high => 0x74#8
  | .ext => 0x66#8

/-- Strobe B of a fuse write (rule R77). -/
def strobeB : Fuse → Byte
  | .low => 0x6C#8
  | .high => 0x7C#8
  | .ext => 0x6E#8

/-- The (data, instruction) pair of a frame constant (rule R75). -/
def frameBytes : FrameName → Byte × Byte
  | .enterFuseRead => (0x04#8, 0x4C#8)
  | .enterSigRead => (0x08#8, 0x4C#8)
  | .enterFuseWrite => (0x40#8, 0x4C#8)
  | .loadData v => (v, 0x2C#8)
  | .sigSelect j => (BitVec.ofNat 8 j.val, 0x0C#8)
  | .sigShiftA => (0x00#8, 0x68#8)
  | .sigShiftB => (0x00#8, 0x6C#8)
  | .fuseSelect s => (0x00#8, selectInstr s)
  | .fuseShift s => (0x00#8, shiftInstr s)
  | .writeStrobeA s => (0x00#8, strobeA s)
  | .writeStrobeB s => (0x00#8, strobeB s)
  | .writeEnd => (0x00#8, 0x4C#8)

/-- The key `d ++ i` of a frame (rule R74). -/
def keyOf (d i : Byte) : FrameKey := d ++ i

/-- The opcode table's instruction for a frame constant (rule R75). -/
def frameInstr : FrameName → Instr
  | .enterFuseRead => .enterFuseRead
  | .enterSigRead => .enterSigRead
  | .enterFuseWrite => .enterFuseWrite
  | .loadData v => .loadData v
  | .sigSelect j => match j with
    | 0 => .sigSelect0
    | 1 => .sigSelect1
    | 2 => .sigSelect2
  | .sigShiftA => .sigShiftA
  | .sigShiftB => .sigShiftB
  | .fuseSelect s => match s with
    | .low => .fuseSelectL
    | .high => .fuseSelectH
    | .ext => .fuseSelectE
  | .fuseShift s => match s with
    | .low => .fuseShiftL
    | .high => .fuseShiftH
    | .ext => .fuseShiftE
  | .writeStrobeA s => match s with
    | .low => .writeStrobeAL
    | .high => .writeStrobeAH
    | .ext => .writeStrobeAE
  | .writeStrobeB s => match s with
    | .low => .writeStrobeBL
    | .high => .writeStrobeBH
    | .ext => .writeStrobeBE
  | .writeEnd => .writeEnd

/-- A frame constant that has the given key. The block itself decodes no frame (rule R78); this reading of a key
serves the opcode table's numbering only. Where several rows share a key (rule R78), it gives the first row of the
table: 0x0068 is SIG_SHIFT_A, 0x006C is SIG_SHIFT_B, 0x006E is FUSE_SHIFT_E (DESIGN CHOICE, log entry 9). All rows
of one key send the same frame. -/
def decodeFrame (key : FrameKey) : Except Reject FrameName :=
  let d : Byte := key.extractLsb' 8 8
  let i : Byte := key.extractLsb' 0 8
  if i = 0x2C#8 then .ok (.loadData d)
  else if i = 0x4C#8 then
    if d = 0x04#8 then .ok .enterFuseRead
    else if d = 0x08#8 then .ok .enterSigRead
    else if d = 0x40#8 then .ok .enterFuseWrite
    else if d = 0x00#8 then .ok .writeEnd
    else .error .noFrameConstant
  else if i = 0x0C#8 then
    if d = 0x00#8 then .ok (.sigSelect 0)
    else if d = 0x01#8 then .ok (.sigSelect 1)
    else if d = 0x02#8 then .ok (.sigSelect 2)
    else .error .noFrameConstant
  else if d ≠ 0x00#8 then .error .noFrameConstant
  else if i = 0x68#8 then .ok .sigShiftA
  else if i = 0x6C#8 then .ok .sigShiftB
  else if i = 0x7A#8 then .ok (.fuseSelect .high)
  else if i = 0x7E#8 then .ok (.fuseShift .high)
  else if i = 0x6A#8 then .ok (.fuseSelect .ext)
  else if i = 0x6E#8 then .ok (.fuseShift .ext)
  else if i = 0x64#8 then .ok (.writeStrobeA .low)
  else if i = 0x74#8 then .ok (.writeStrobeA .high)
  else if i = 0x7C#8 then .ok (.writeStrobeB .high)
  else if i = 0x66#8 then .ok (.writeStrobeA .ext)
  else .error .noFrameConstant

/-- The instruction of an opcode-table word: 24 bits are a host command word presented whole on the command port
(rule R53), 16 bits are the key of a frame (rule R74). -/
def decodeTableWord (nbits w : Nat) : Option Instr :=
  if nbits = 24 then (decode (BitVec.ofNat 24 w)).toOption
  else if nbits = 16 then ((decodeFrame (BitVec.ofNat 16 w)).map frameInstr).toOption
  else none

/-! ## The encoder -/

/-- The bits of an instruction: a host command word or a frame key. -/
inductive Encoded where
  | command (w : CmdWord)
  | frame (key : FrameKey)
  deriving DecidableEq, Repr

/-- The word of a command with the given opcode, `SEL`, `A` and `B`, and `Z = 0` (rule R84). -/
def commandWord (op : BitVec 4) (sel : BitVec 2) (a b : Byte) : CmdWord :=
  wordOf { op := op, sel := sel, z := 0, a := a, b := b }

/-- The key of a frame constant as an encoding. -/
def frameCode (f : FrameName) : Encoded := .frame (keyOf (frameBytes f).1 (frameBytes f).2)

/-- Rules R75, R84: the bits of every instruction of the opcode table. -/
def encode : Instr → Encoded
  | .enter => .command (commandWord 1 0 0 0)
  | .exit => .command (commandWord 2 0 0 0)
  | .frame d i => .command (commandWord 3 0 d i)
  | .rdfuseL => .command (commandWord 4 0 0 0)
  | .rdfuseH => .command (commandWord 4 1 0 0)
  | .rdfuseE => .command (commandWord 4 2 0 0)
  | .rdsig0 => .command (commandWord 5 0 0 0)
  | .rdsig1 => .command (commandWord 5 1 0 0)
  | .rdsig2 => .command (commandWord 5 2 0 0)
  | .wrfuseL v => .command (commandWord 6 0 v 0)
  | .wrfuseH v => .command (commandWord 6 1 v 0)
  | .wrfuseE v => .command (commandWord 6 2 v 0)
  | .ident => .command (commandWord 7 0 0 0)
  | .readall => .command (commandWord 8 0 0 0)
  | .restore => .command (commandWord 9 0 0 0)
  | .enterFuseRead => frameCode .enterFuseRead
  | .enterSigRead => frameCode .enterSigRead
  | .enterFuseWrite => frameCode .enterFuseWrite
  | .loadData v => frameCode (.loadData v)
  | .sigSelect0 => frameCode (.sigSelect 0)
  | .sigSelect1 => frameCode (.sigSelect 1)
  | .sigSelect2 => frameCode (.sigSelect 2)
  | .sigShiftA => frameCode .sigShiftA
  | .sigShiftB => frameCode .sigShiftB
  | .fuseSelectL => frameCode (.fuseSelect .low)
  | .fuseShiftL => frameCode (.fuseShift .low)
  | .fuseSelectH => frameCode (.fuseSelect .high)
  | .fuseShiftH => frameCode (.fuseShift .high)
  | .fuseSelectE => frameCode (.fuseSelect .ext)
  | .fuseShiftE => frameCode (.fuseShift .ext)
  | .writeStrobeAL => frameCode (.writeStrobeA .low)
  | .writeStrobeBL => frameCode (.writeStrobeB .low)
  | .writeStrobeAH => frameCode (.writeStrobeA .high)
  | .writeStrobeBH => frameCode (.writeStrobeB .high)
  | .writeStrobeAE => frameCode (.writeStrobeA .ext)
  | .writeStrobeBE => frameCode (.writeStrobeB .ext)
  | .writeEnd => frameCode .writeEnd

/-- The bits of an instruction as a number, as `spec/opcode_table.json` numbers them. -/
def Encoded.toNat : Encoded → Nat
  | .command w => w.toNat
  | .frame key => key.toNat

/-- How many bits an instruction has (rules R74, R83). -/
def Encoded.nbits : Encoded → Nat
  | .command _ => 24
  | .frame _ => 16

/-! ## The opcode table -/

/-- A row of `spec/opcode_table.json`: its width, and the bits that are fixed and their values. -/
structure OpcodeRow where
  nbits : Nat
  mask : Nat
  pattern : Nat
  deriving DecidableEq, Repr

/-- The row of an instruction. -/
def opcodeRow : Instr → OpcodeRow
  | .enter => { nbits := 24, mask := 0xFFFFFF, pattern := 0x100000 }
  | .exit => { nbits := 24, mask := 0xFFFFFF, pattern := 0x200000 }
  | .frame _ _ => { nbits := 24, mask := 0xFF0000, pattern := 0x300000 }
  | .rdfuseL => { nbits := 24, mask := 0xFFFFFF, pattern := 0x400000 }
  | .rdfuseH => { nbits := 24, mask := 0xFFFFFF, pattern := 0x440000 }
  | .rdfuseE => { nbits := 24, mask := 0xFFFFFF, pattern := 0x480000 }
  | .rdsig0 => { nbits := 24, mask := 0xFFFFFF, pattern := 0x500000 }
  | .rdsig1 => { nbits := 24, mask := 0xFFFFFF, pattern := 0x540000 }
  | .rdsig2 => { nbits := 24, mask := 0xFFFFFF, pattern := 0x580000 }
  | .wrfuseL _ => { nbits := 24, mask := 0xFF00FF, pattern := 0x600000 }
  | .wrfuseH _ => { nbits := 24, mask := 0xFF00FF, pattern := 0x640000 }
  | .wrfuseE _ => { nbits := 24, mask := 0xFF00FF, pattern := 0x680000 }
  | .ident => { nbits := 24, mask := 0xFFFFFF, pattern := 0x700000 }
  | .readall => { nbits := 24, mask := 0xFFFFFF, pattern := 0x800000 }
  | .restore => { nbits := 24, mask := 0xFFFFFF, pattern := 0x900000 }
  | .enterFuseRead => { nbits := 16, mask := 0xFFFF, pattern := 0x044C }
  | .enterSigRead => { nbits := 16, mask := 0xFFFF, pattern := 0x084C }
  | .enterFuseWrite => { nbits := 16, mask := 0xFFFF, pattern := 0x404C }
  | .loadData _ => { nbits := 16, mask := 0x00FF, pattern := 0x002C }
  | .sigSelect0 => { nbits := 16, mask := 0xFFFF, pattern := 0x000C }
  | .sigSelect1 => { nbits := 16, mask := 0xFFFF, pattern := 0x010C }
  | .sigSelect2 => { nbits := 16, mask := 0xFFFF, pattern := 0x020C }
  | .sigShiftA => { nbits := 16, mask := 0xFFFF, pattern := 0x0068 }
  | .sigShiftB => { nbits := 16, mask := 0xFFFF, pattern := 0x006C }
  | .fuseSelectL => { nbits := 16, mask := 0xFFFF, pattern := 0x0068 }
  | .fuseShiftL => { nbits := 16, mask := 0xFFFF, pattern := 0x006C }
  | .fuseSelectH => { nbits := 16, mask := 0xFFFF, pattern := 0x007A }
  | .fuseShiftH => { nbits := 16, mask := 0xFFFF, pattern := 0x007E }
  | .fuseSelectE => { nbits := 16, mask := 0xFFFF, pattern := 0x006A }
  | .fuseShiftE => { nbits := 16, mask := 0xFFFF, pattern := 0x006E }
  | .writeStrobeAL => { nbits := 16, mask := 0xFFFF, pattern := 0x0064 }
  | .writeStrobeBL => { nbits := 16, mask := 0xFFFF, pattern := 0x006C }
  | .writeStrobeAH => { nbits := 16, mask := 0xFFFF, pattern := 0x0074 }
  | .writeStrobeBH => { nbits := 16, mask := 0xFFFF, pattern := 0x007C }
  | .writeStrobeAE => { nbits := 16, mask := 0xFFFF, pattern := 0x0066 }
  | .writeStrobeBE => { nbits := 16, mask := 0xFFFF, pattern := 0x006E }
  | .writeEnd => { nbits := 16, mask := 0xFFFF, pattern := 0x004C }

/-- The rows of format HOSTCMD, in the table's order. -/
def hostRows : List OpcodeRow :=
  [opcodeRow .enter, opcodeRow .exit, opcodeRow (.frame 0 0), opcodeRow .rdfuseL, opcodeRow .rdfuseH, opcodeRow .rdfuseE,
   opcodeRow .rdsig0, opcodeRow .rdsig1, opcodeRow .rdsig2, opcodeRow (.wrfuseL 0), opcodeRow (.wrfuseH 0),
   opcodeRow (.wrfuseE 0), opcodeRow .ident, opcodeRow .readall, opcodeRow .restore]

/-- A word has the fixed bits of a row. -/
def OpcodeRow.fits (r : OpcodeRow) (w : Nat) : Bool := w &&& r.mask == r.pattern

end Sys2Proof
end

