-- ==== Sys2Proof/Machine/State.lean ====
section
/-! DEFINITION. The state of the HVSP core (`10_state.md`), the reasons a step may stop, and the state after reset
(rule R40). The block has no memory of its own (`20_memory.md` rules R50, R51): its address space is the host register
file, computed from these registers in `Machine/Flags.lean`. Beside the block's registers, State holds what surrounds
the block as plain data: the parameters it was built with (rule R5), the answers the pin transport is going to give
(rule R206), what the host is going to do (rules R52, R53, R220), and the record of what happened on both sides
(rule R56). -/

namespace Sys2Proof.Machine

/-- One bit for each of the five lines (rules R20, R70): levels in `OUT`, where true is high, and directions in `DIR`,
where true is output. The bit positions are in `linesMask`. -/
structure Lines where
  /-- data-in, bit 0 -/
  din : Bool
  /-- instruction-in, bit 1 -/
  iin : Bool
  /-- clock, bit 2 -/
  clk : Bool
  /-- reset drive, bit 3 -/
  rst : Bool
  /-- data-out, bit 4 -/
  dout : Bool
  deriving DecidableEq, Repr

/-- The Session phase (rule R23). -/
inductive Phase where
  | idle
  | poweredReset
  | highVoltageApplied
  | stableEnable
  | ready
  deriving DecidableEq, Repr

/-- The outcome of a command (rule R190). -/
inductive ErrCode where
  | ok
  | transportUnavailable
  | transportIoFailure
  | writeTimeout
  | unknownDevice
  | illegalCmd
  | wrongPhase
  deriving DecidableEq, Repr

/-- A FuseSet: the low, high and extended fuse byte (rule R11). -/
structure FuseSet where
  low : Byte
  high : Byte
  ext : Byte
  deriving DecidableEq, Repr

/-- The three signature bytes (rule R30). -/
structure Signature where
  b0 : Byte
  b1 : Byte
  b2 : Byte
  deriving DecidableEq, Repr

/-- `MATCH` (rule R34). -/
structure MatchReg where
  done : Bool
  found : Bool
  idx : BitVec 4
  deriving DecidableEq, Repr

/-- The outcome of the last write of one fuse byte (rule R35). -/
inductive WriteOutcome where
  | notAttempted
  | done
  | timeout
  | skipped
  deriving DecidableEq, Repr

/-- The verify outcome (rule R35). -/
inductive VerifyOutcome where
  | notRun
  | matched
  | mismatch
  deriving DecidableEq, Repr

/-- `WROUT` (rule R35). -/
structure WroutReg where
  wl : WriteOutcome
  wh : WriteOutcome
  we : WriteOutcome
  verify : VerifyOutcome
  deriving DecidableEq, Repr

/-- A transport event as the trace records it (rule R56): the call, its argument, and what the transport returned. -/
inductive Event where
  /-- `setOutputs(L)`; `ok` is false where the transport reported a failure -/
  | set (levels : Lines) (ok : Bool)
  /-- `configureDirections(M)` -/
  | dir (mask : Lines) (ok : Bool)
  /-- `readInput()`: the bit returned, or `none` for a failure -/
  | read (bit : Option Bool)
  /-- `delayMicros(n)` and how long it lasted -/
  | delay (micros : Nat) (lasted : Nat)
  deriving DecidableEq, Repr

/-- What the failure of a transport call leads to (rules R191 to R193). -/
inductive OnFail where
  /-- the abort with its exit SET: any event but the two below -/
  | abort
  /-- TRANSPORT_UNAVAILABLE: the first event of ENTER -/
  | unavailable
  /-- the abort without an exit SET: the SET of EXIT -/
  | exitFailed
  deriving DecidableEq, Repr

/-- How a command's outcome is found at its end. -/
inductive Ending where
  /-- `ERR <- 0` -/
  | ok
  /-- `ERR <- (f = 1) ? 0 : 4` (rules R166, R167) -/
  | identified
  /-- `ERR <- (t = 1) ? 3 : 0` (rules R129, R168) -/
  | written
  deriving DecidableEq, Repr

/-- The statements of the commands' pseudocode: the sequencer's position (rule R27) is the list of those that remain.
A call of a procedure is one statement, replaced by the procedure's statements when it is reached. -/
inductive Stmt where
  /-- `Set(L)` with a given mask -/
  | set (onFail : OnFail) (levels : Lines)
  /-- `Dir(M)` -/
  | dir (onFail : OnFail) (mask : Lines)
  /-- `Delay(n)` -/
  | delay (micros : Nat)
  /-- `PHASE <- p` -/
  | phase (p : Phase)
  /-- call of `TransferFrame(d, i)` by the command FRAME -/
  | transfer (d i : Byte)
  /-- call of `TransferFrame` with a constant of rule R75 -/
  | send (f : FrameName)
  /-- `Set(OUT with din <- 0, iin <- 0, clk <- 0)` -/
  | driveZero
  /-- `Set(OUT with din <- FC_D[k], iin <- FC_I[k], clk <- 0)` -/
  | driveBit (k : Fin 8)
  /-- `Set(OUT with clk <- b)`, half of a `Pulse()` -/
  | clock (b : Bool)
  /-- `b <- Sample(); FC_R <- FC_R[6:0] ++ b; FC_K <- 8 - k` -/
  | sampleBit (k : Fin 8)
  /-- `FC_K <- k` -/
  | cycleNo (k : Fin 11)
  /-- `RESULT <- FC_R; return FC_R` -/
  | frameEnd
  /-- call of `ReadFuse(s)` -/
  | readFuse (s : Fuse)
  /-- call of `ReadSig(j)` -/
  | readSig (j : SigIndex)
  /-- call of `WriteFuse(s, v)` -/
  | writeFuse (s : Fuse) (v : Byte)
  /-- call of `WriteFuse(s, DEF[s])` -/
  | writeDefault (s : Fuse)
  /-- `POLL_N <- 0`, the start of `Poll()` -/
  | pollStart
  /-- one turn of the loop of `Poll()` -/
  | poll
  /-- the return of `WriteFuse(s, v)` with `r`: `WROUT[s] <- r; if r = TIMEOUT: t <- 1`; and, with `r` SKIPPED,
  `WROUT[s] <- 3` -/
  | wrote (s : Fuse) (r : WriteOutcome)
  /-- `CUR[s] <-` the byte the procedure returned -/
  | storeCur (s : Fuse)
  /-- `VER[s] <-` the byte the procedure returned -/
  | storeVer (s : Fuse)
  /-- `SIG[j] <-` the byte the procedure returned -/
  | storeSig (j : SigIndex)
  /-- call of `(f, k) <- ApplyIdentify()` -/
  | applyIdentify
  /-- `(f, k) <- Identify(SIG); MATCH <- {DONE = 1, FOUND = f, IDX = k}` (rule R176) -/
  | identifyMatch
  /-- `DEF[s] <- (f = 1) ? e.def_s : 0x00` (rule R176) -/
  | identifyDef (s : Fuse)
  /-- `MATCH <- 0x00` (rule R168) -/
  | clearMatch
  /-- `DEF[s] <- 0x00` (rule R168) -/
  | clearDef (s : Fuse)
  /-- `VER[s] <- 0x00` (rule R168) -/
  | clearVer (s : Fuse)
  /-- `WROUT <- 0x00` (rule R168) -/
  | clearWrout
  /-- `if f = 0:` the three SKIPPED writes and the end (rules R168, R171) -/
  | unlessFoundEnd
  /-- `t <- 0` -/
  | clearTimeout
  /-- `if DEF[E] = 0xFF:` the SKIPPED write of `WE`, `else:` the call of `WriteFuse(E, DEF[E])` (rules R168, R169) -/
  | writeExtended
  /-- `WROUT.VERIFY <- ...` (rule R170) -/
  | verify
  /-- the completion of the command (rule R200) -/
  | finish (e : Ending)
  /-- the abort's `Set(EXIT_LEVELS)`, ignoring its failure (rule R193) -/
  | abortSet
  /-- the abort's `PHASE <- 0; ERR <- 2; BUSY <- 0` (rule R193) -/
  | abortEnd
  deriving DecidableEq, Repr

/-- What the host can do to the block (rules R52, R53, R85, R220; it has no other input, rule R203). -/
inductive HostAct where
  /-- nothing: the host waits -/
  | wait
  /-- `Cmd(w)` (rule R53) -/
  | cmd (w : CmdWord)
  /-- `MemRead(a, 1)` (rule R52) -/
  | read (a : RegAddr)
  /-- `WAIT`: `RD STATUS` again and again until `BUSY = 0` (rule R85) -/
  | waitDone
  /-- block reset (rules R220, R221) -/
  | reset
  deriving DecidableEq, Repr

/-- One turn of the host: what it does, and how many steps the block's sequencer then makes before the host acts
again. -/
structure Turn where
  act : HostAct
  grant : Nat
  deriving DecidableEq, Repr

/-- The reasons a step may stop with a fault. There is none: rule R190's errors are outcomes of a command, after
which the block goes on (rule R201), and the block has no trap (`60_exceptions.md`). -/
inductive Fault
  deriving DecidableEq, Repr

/-- The reasons a step may refuse. -/
inductive Refusal where
  /-- Raised by `exec` for an instruction without a meaning; no arm does. Safe: the machine stops where the hardware
  goes on. -/
  | notModelled (mnemonic : String)
  deriving DecidableEq, Repr

/-- The state. -/
structure State where
  /-- `OUT` (rule R20) -/
  out : Lines
  /-- `DIR` (rule R21) -/
  dir : Lines
  /-- `IN_LAST` (rule R22) -/
  inLast : Bool
  /-- `PHASE` (rule R23) -/
  phase : Phase
  /-- `BUSY` (rule R24) -/
  busy : Bool
  /-- `ERR` (rule R25) -/
  err : ErrCode
  /-- `FC_D` (rule R26) -/
  fcD : Byte
  /-- `FC_I` (rule R26) -/
  fcI : Byte
  /-- `FC_R` (rule R26) -/
  fcR : Byte
  /-- `FC_K` (rule R26) -/
  fcK : Fin 11
  /-- `CMDW` (rule R27) -/
  cmdw : CmdWord
  /-- the sequencer position: the statements that remain (rule R27) -/
  pos : List Stmt
  /-- the local `t` of RESTORE, and of WRFUSE `r = TIMEOUT` (rules R27, R129, R168) -/
  timedOut : Bool
  /-- `POLL_N` (rule R28) -/
  pollN : Nat
  /-- `RESULT` (rule R29) -/
  result : Byte
  /-- `SIG[0..2]` (rule R30) -/
  sig : Signature
  /-- `CUR[L,H,E]` (rule R31) -/
  cur : FuseSet
  /-- `DEF[L,H,E]` (rule R32) -/
  dflt : FuseSet
  /-- `VER[L,H,E]` (rule R33) -/
  ver : FuseSet
  /-- `MATCH` (rule R34) -/
  ident : MatchReg
  /-- `WROUT` (rule R35) -/
  wrout : WroutReg
  /-- the parameters the block was built with (rules R5, R38); no step changes them -/
  setup : Setup
  /-- the model's own: the transport's answers to come, in order (rule R206) -/
  answers : List Answer
  /-- the model's own: how many answers were taken from `Config.freeAnswer` once the list was used up -/
  draws : Nat
  /-- the model's own: the host's turns to come, in order -/
  turns : List Turn
  /-- the model's own: the sequencer steps the block makes in the host's current turn -/
  grant : Nat
  /-- the trace of transport events, in issue order (rule R56) -/
  trace : List Event
  /-- the model's own: what the host read, in order: address and value -/
  seen : List (RegAddr × Byte)
  deriving DecidableEq, Repr

/-- The block right after reset (rule R40). `FC_D`, `FC_I`, `FC_R`, `FC_K`, `POLL_N`, `CMDW` and the local `t`, which
rule R40 leaves unspecified, are 0 (DESIGN CHOICE, log entry 7). Nothing has happened yet on either side. -/
def State.reset : State where
  out := { din := false, iin := false, clk := false, rst := true, dout := false }
  dir := { din := true, iin := true, clk := true, rst := true, dout := true }
  inLast := false
  phase := .idle
  busy := false
  err := .ok
  fcD := 0
  fcI := 0
  fcR := 0
  fcK := 0
  cmdw := 0
  pos := []
  timedOut := false
  pollN := 0
  result := 0
  sig := { b0 := 0, b1 := 0, b2 := 0 }
  cur := { low := 0, high := 0, ext := 0 }
  dflt := { low := 0, high := 0, ext := 0 }
  ver := { low := 0, high := 0, ext := 0 }
  ident := { done := false, found := false, idx := 0 }
  wrout := { wl := .notAttempted, wh := .notAttempted, we := .notAttempted, verify := .notRun }
  setup := Setup.standard
  answers := []
  draws := 0
  turns := []
  grant := 0
  trace := []
  seen := []

end Sys2Proof.Machine
end

