-- ==== Sys2Proof/Machine/Operands.lean ====
section
/-! DEFINITION. Operands: the level and direction constants (`42_session.md` rule R141), the 5-bit mask of a set of
lines (`30_encoding.md` rule R70), and the register groups indexed by a fuse selector or a signature index
(`00_scope.md` rule R7). -/

namespace Sys2Proof.Machine

/-- The 5-bit mask of rule R70: bit 0 `din`, bit 1 `iin`, bit 2 `clk`, bit 3 `rst`, bit 4 `dout`. -/
def linesMask (l : Lines) : BitVec 5 :=
  BitVec.ofBool l.dout ++ BitVec.ofBool l.rst ++ BitVec.ofBool l.clk ++ BitVec.ofBool l.iin ++ BitVec.ofBool l.din

/-- The lines of a 5-bit mask (rule R70). -/
def maskLines (m : BitVec 5) : Lines :=
  { din := m.getLsbD 0, iin := m.getLsbD 1, clk := m.getLsbD 2, rst := m.getLsbD 3, dout := m.getLsbD 4 }

/-- `REST_RESET = 0b01000` (rule R141). -/
def restReset : Lines := maskLines 0b01000

/-- `HV_APPLIED = 0b00000` (rule R141). -/
def hvApplied : Lines := maskLines 0b00000

/-- `EXIT_LEVELS = 0b01000` (rule R141). -/
def exitLevels : Lines := maskLines 0b01000

/-- `ALL_OUT = 0b11111` (rules R21, R141). -/
def allOut : Lines := maskLines 0b11111

/-- `DOUT_IN = 0b01111` (rules R21, R141). -/
def doutIn : Lines := maskLines 0b01111

/-- `X[s]` for a FuseSet X. -/
def fuseGet (x : FuseSet) : Fuse → Byte
  | .low => x.low
  | .high => x.high
  | .ext => x.ext

/-- `X[s] <- v` for a FuseSet X. -/
def fuseSet (x : FuseSet) (s : Fuse) (v : Byte) : FuseSet :=
  match s with
  | .low => { x with low := v }
  | .high => { x with high := v }
  | .ext => { x with ext := v }

/-- `SIG[j]`. -/
def sigGet (x : Signature) (j : SigIndex) : Byte :=
  match j with
  | 0 => x.b0
  | 1 => x.b1
  | 2 => x.b2

/-- `SIG[j] <- v`. -/
def sigSet (x : Signature) (j : SigIndex) (v : Byte) : Signature :=
  match j with
  | 0 => { x with b0 := v }
  | 1 => { x with b1 := v }
  | 2 => { x with b2 := v }

/-- The `WROUT` field of s. -/
def wroutGet (x : WroutReg) : Fuse → WriteOutcome
  | .low => x.wl
  | .high => x.wh
  | .ext => x.we

/-- The `WROUT` field of s `<- r`. -/
def wroutSet (x : WroutReg) (s : Fuse) (r : WriteOutcome) : WroutReg :=
  match s with
  | .low => { x with wl := r }
  | .high => { x with wh := r }
  | .ext => { x with we := r }

/-- The received byte with one more sample: `FC_R[6:0] ++ b` (rule R105). -/
def shiftIn (r : Byte) (b : Bool) : Byte := r.extractLsb' 0 7 ++ BitVec.ofBool b

/-- The catalog, an ordered list of descriptors (rule R160). -/
def catalogOf (s : State) : List Descriptor := s.setup.params.catalog

end Sys2Proof.Machine
end

