-- ==== Sys2Proof/Machine/Flags.lean ====
section
/-! DEFINITION. The codes of the status fields and the host register file (`10_state.md` rules R23, R25, R34 to R36,
`20_memory.md` rule R52). -/

namespace Sys2Proof.Machine

/-- The 3-bit code of a phase (rule R23). -/
def phaseCode : Phase → BitVec 3
  | .idle => 0
  | .poweredReset => 1
  | .highVoltageApplied => 2
  | .stableEnable => 3
  | .ready => 4

/-- The 4-bit code of an outcome (rule R190). -/
def errCode : ErrCode → BitVec 4
  | .ok => 0
  | .transportUnavailable => 1
  | .transportIoFailure => 2
  | .writeTimeout => 3
  | .unknownDevice => 4
  | .illegalCmd => 5
  | .wrongPhase => 6

/-- The 2-bit code of a write outcome (rule R35). -/
def writeCode : WriteOutcome → BitVec 2
  | .notAttempted => 0
  | .done => 1
  | .timeout => 2
  | .skipped => 3

/-- The 2-bit code of a verify outcome (rule R35). -/
def verifyCode : VerifyOutcome → BitVec 2
  | .notRun => 0
  | .matched => 1
  | .mismatch => 2

/-- `STATUS`: [2:0] PHASE, [3] BUSY, [7:4] ERR (rule R36). -/
def statusByte (s : State) : Byte := errCode s.err ++ BitVec.ofBool s.busy ++ phaseCode s.phase

/-- `MATCH`: [3:0] IDX, [5:4] 0, [6] FOUND, [7] DONE (rules R34, R36). -/
def matchByte (m : MatchReg) : Byte := BitVec.ofBool m.done ++ BitVec.ofBool m.found ++ (0 : BitVec 2) ++ m.idx

/-- `WROUT`: [1:0] WL, [3:2] WH, [5:4] WE, [7:6] VERIFY (rules R35, R36). -/
def wroutByte (x : WroutReg) : Byte :=
  verifyCode x.verify ++ writeCode x.we ++ writeCode x.wh ++ writeCode x.wl

/-- `PINS`: [4:0] OUT, [7:5] 0 (rule R36). -/
def pinsByte (s : State) : Byte := (0 : BitVec 3) ++ linesMask s.out

/-- `DIRIN`: [4:0] DIR, [6:5] 0, [7] IN_LAST (rule R36). -/
def dirinByte (s : State) : Byte := BitVec.ofBool s.inLast ++ (0 : BitVec 2) ++ linesMask s.dir

/-- The host register file (rules R36, R52): the byte a host read of an address returns, 0x00 for an unmapped one. -/
def hostRead (s : State) (a : RegAddr) : Byte :=
  match a.toNat with
  | 0x00 => statusByte s
  | 0x01 => matchByte s.ident
  | 0x02 => s.result
  | 0x03 => s.sig.b0
  | 0x04 => s.sig.b1
  | 0x05 => s.sig.b2
  | 0x06 => s.cur.low
  | 0x07 => s.cur.high
  | 0x08 => s.cur.ext
  | 0x09 => s.dflt.low
  | 0x0A => s.dflt.high
  | 0x0B => s.dflt.ext
  | 0x0C => s.ver.low
  | 0x0D => s.ver.high
  | 0x0E => s.ver.ext
  | 0x0F => wroutByte s.wrout
  | 0x10 => pinsByte s
  | 0x11 => dirinByte s
  | _ => 0x00

end Sys2Proof.Machine
end

