-- ==== Sys2Proof/Machine/Ops.lean ====
section
/-! DEFINITION. The operations every command shares: the answers of the pin transport, its four calls
(`40_frame_codec.md` rules R100 to R104), the block's exception, the abort (`60_exceptions.md` rules R191 to R193), the
command handshake (rules R196, R197, R200 to R202), the completion poll's step (`41_fuse_signature_ops.md` rule R126),
the Device Matcher (`43_catalog_workflow.md` rules R163, R176) and block reset (`70_reset_and_hazards.md` rules R220,
R221). -/

namespace Sys2Proof.Machine

/-! ## The transport's answers -/

/-- The n-th answer the transport is going to give: from the list where it reaches, free past its end (log entry 3). -/
def answerAt (s : State) (n : Nat) : Answer :=
  (s.answers[n]?).getD (Config.freeAnswer (s.draws + (n - s.answers.length)))

/-- The state once the next n answers were taken. -/
def drawn (n : Nat) (s : State) : State :=
  { s with answers := s.answers.drop n, draws := s.draws + (n - s.answers.length) }

/-- One transport event: it takes one answer and is recorded in the trace (rule R56). -/
def issue (e : Event) (s : State) : State :=
  { drawn 1 s with trace := s.trace ++ [e] }

/-! ## Completion and the abort -/

/-- The completion of a command (rule R200): `ERR` takes the outcome, `BUSY` becomes 0 and the position is discarded
(rule R27). -/
def complete (e : ErrCode) (s : State) : State :=
  { s with err := e, busy := false, pos := [] }

/-- The failure of a transport call is raised (rules R191 to R193): the block's trap entry. The interrupted position is
discarded. An abort has its exit SET and its internal writes still to do, in that order; the failed SET of EXIT is not
tried again; TRANSPORT_UNAVAILABLE ends the command at once. -/
def raiseFailure (p : OnFail) (s : State) : State :=
  match p with
  | .abort => { s with pos := [.abortSet, .abortEnd] }
  | .exitFailed => { s with pos := [.abortEnd] }
  | .unavailable => complete .transportUnavailable { s with phase := .idle }

/-- The abort's best-effort exit SET (rule R193): one try, its failure ignored. -/
def abortExit (s : State) : State :=
  issue (.set exitLevels (!(answerAt s 0).fails)) { s with out := exitLevels }

/-- The end of the abort (rule R193): `PHASE <- 0`, `ERR <- 2`, `BUSY <- 0`. There is no return from it (rule R201). -/
def abortFinish (s : State) : State := complete .transportIoFailure { s with phase := .idle }

/-! ## The transport's calls -/

/-- `Set(L)` (rule R100). -/
def setLines (p : OnFail) (l : Lines) (s : State) : State :=
  if (answerAt s 0).fails then raiseFailure p (issue (.set l false) { s with out := l })
  else issue (.set l true) { s with out := l }

/-- `Dir(M)` (rule R101). -/
def dirLines (p : OnFail) (m : Lines) (s : State) : State :=
  if (answerAt s 0).fails then raiseFailure p (issue (.dir m false) { s with dir := m })
  else issue (.dir m true) { s with dir := m }

/-- `Sample()` (rule R102): the bit is written to `IN_LAST` and given to what the statement does with it; a failure
leaves `IN_LAST` unchanged. -/
def sample (use : Bool → State → State) (s : State) : State :=
  if (answerAt s 0).fails then raiseFailure .abort (issue (.read none) s)
  else use (answerAt s 0).level (issue (.read (some (answerAt s 0).level)) { s with inLast := (answerAt s 0).level })

/-- `Delay(n)` (rule R103): it cannot fail, and it lasts at least n microseconds. -/
def delayFor (n : Nat) (s : State) : State := issue (.delay n (n + (answerAt s 0).late)) s

/-! ## The completion poll -/

/-- `POLL_LIMIT = some l and n >= l` (rule R126). -/
def pollLimitReached (limit : Option Nat) (n : Nat) : Bool :=
  match limit with
  | none => false
  | some l => decide (l ≤ n)

/-- The poll goes on: the delay between two samples, where there is one, and the next turn of the loop (rule R126). -/
def pollAgain (interval : Nat) : List Stmt :=
  if 0 < interval then [.delay interval, .poll] else [.poll]

/-- What remains once a poll returned TIMEOUT: the WriteFuse in progress returns TIMEOUT at once (rule R128). -/
def timeoutExit : List Stmt → List Stmt
  | [] => []
  | .wrote s _ :: rest => .wrote s .timeout :: rest
  | _ :: rest => timeoutExit rest

/-- What a poll does with its sample (rule R126): READY on a high bit; else the count, the bound, the next sample. -/
def pollSample (b : Bool) (s : State) : State :=
  if b then s
  else if pollLimitReached s.setup.params.pollLimit (s.pollN + 1) then
    { s with pollN := s.pollN + 1, pos := timeoutExit s.pos }
  else { s with pollN := s.pollN + 1, pos := pollAgain s.setup.params.pollIntervalUs ++ s.pos }

/-! ## The Device Matcher -/

/-- The catalog entry's signature equals the argument, in all three bytes (rule R165). -/
def sigMatches (g : Signature) (e : Descriptor) : Bool := e.sig0 == g.b0 && e.sig1 == g.b1 && e.sig2 == g.b2

/-- The scan of rule R163, from index k on: the first entry with the signature, and its index. -/
def scanFrom (g : Signature) (k : Nat) : List Descriptor → Option (Nat × Descriptor)
  | [] => none
  | e :: rest => if sigMatches g e then some (k, e) else scanFrom g (k + 1) rest

/-- `Identify(g0, g1, g2)` (rules R163, R164). -/
def identify (catalog : List Descriptor) (g : Signature) : Option (Nat × Descriptor) :=
  if g.b0 = 0 ∧ g.b1 = 0 ∧ g.b2 = 0 then none else scanFrom g 0 catalog

/-- `MATCH <- {DONE = 1, FOUND = f, IDX = k}` of `ApplyIdentify()` (rule R176). -/
def identifyMatch (s : State) : State :=
  match identify (catalogOf s) s.sig with
  | some (k, _) => { s with ident := { done := true, found := true, idx := BitVec.ofNat 4 k } }
  | none => { s with ident := { done := true, found := false, idx := 0 } }

/-- `DEF[s] <- e.def_s`, or 0x00 where nothing matched, of `ApplyIdentify()` (rule R176). The entry is found again from
`SIG`, which nothing writes since `MATCH` was written (log entry 15). -/
def identifyDef (f : Fuse) (s : State) : State :=
  match identify (catalogOf s) s.sig with
  | some (_, e) => { s with dflt := fuseSet s.dflt f (fuseGet { low := e.defL, high := e.defH, ext := e.defE } f) }
  | none => { s with dflt := fuseSet s.dflt f 0x00 }

/-! ## The command handshake -/

/-- A command word is accepted (rule R200): `CMDW <- w; ERR <- 0; BUSY <- 1`. -/
def accept (w : CmdWord) (s : State) : State := { s with cmdw := w, err := .ok, busy := true }

/-- An illegal word completes at once (rule R196). -/
def illegalCommand (s : State) : State := complete .illegalCmd s

/-- The phases a command is allowed in (rule R197). The frame constants are no commands: the sequencer sends them
inside a command that is running, so no phase is asked for. -/
def allowedIn (p : Phase) : Instr → Bool
  | .enter => p == .idle
  | .exit => p == .idle || p == .ready
  | .frame _ _ | .rdfuseL | .rdfuseH | .rdfuseE | .rdsig0 | .rdsig1 | .rdsig2
  | .wrfuseL _ | .wrfuseH _ | .wrfuseE _ | .readall | .restore => p == .ready
  | .ident
  | .enterFuseRead | .enterSigRead | .enterFuseWrite | .loadData _ | .sigSelect0 | .sigSelect1 | .sigSelect2
  | .sigShiftA | .sigShiftB | .fuseSelectL | .fuseShiftL | .fuseSelectH | .fuseShiftH | .fuseSelectE | .fuseShiftE
  | .writeStrobeAL | .writeStrobeBL | .writeStrobeAH | .writeStrobeBH | .writeStrobeAE | .writeStrobeBE
  | .writeEnd => true

/-- A command begins with its statements as the position and its locals cleared, or completes at once with
WRONG_PHASE where the phase does not allow it (rules R197, R198, R200). -/
def begin (i : Instr) (program : List Stmt) (s : State) : State :=
  if allowedIn s.phase i then { s with pos := program, timedOut := false } else complete .wrongPhase s

/-! ## Block reset -/

/-- Block reset (rules R220, R221): every register takes its value of rule R40, a command in progress is abandoned, and
no event is issued. What surrounds the block is not reset. -/
def blockReset (s : State) : State :=
  { State.reset with
    setup := s.setup, answers := s.answers, draws := s.draws, turns := s.turns, grant := s.grant
    trace := s.trace, seen := s.seen }

end Sys2Proof.Machine
end

