-- ==== Sys2Proof/Machine/Programs.lean ====
section
/-! DEFINITION. The pseudocode of the procedures and commands as lists of statements, line by line: TransferFrame
(`40_frame_codec.md` rule R105), ReadFuse, ReadSig, WriteFuse and Poll (`41_fuse_signature_ops.md` rules R120, R121,
R125, R126), ENTER and EXIT (`42_session.md` rules R142, R143), IDENT, READALL and RESTORE
(`43_catalog_workflow.md` rules R166 to R168). -/

namespace Sys2Proof.Machine

/-- `Pulse()` (rule R104). -/
def pulse : List Stmt := [.clock true, .clock false]

/-- One main cycle of a frame, for bit k (rule R105). -/
def mainCycle (k : Fin 8) : List Stmt := [.sampleBit k, .driveBit k] ++ pulse

/-- The statements of `TransferFrame` after its arguments were latched (rule R105). -/
def frameBody : List Stmt :=
  [.driveZero] ++ pulse ++
  mainCycle 7 ++ mainCycle 6 ++ mainCycle 5 ++ mainCycle 4 ++ mainCycle 3 ++ mainCycle 2 ++ mainCycle 1 ++ mainCycle 0 ++
  [.cycleNo 9, .driveZero] ++ pulse ++ [.cycleNo 10] ++ pulse ++ [.frameEnd]

/-- `ReadFuse(s)` (rule R120). -/
def readFuseBody (s : Fuse) : List Stmt :=
  [.send .enterFuseRead, .send (.fuseSelect s), .send (.fuseShift s)]

/-- `ReadSig(j)` (rule R121). -/
def readSigBody (j : SigIndex) : List Stmt :=
  [.send .enterSigRead, .send (.sigSelect j), .send .sigShiftA, .send .sigShiftB]

/-- `Poll()` (rule R126). -/
def pollBody : List Stmt := [.pollStart, .poll]

/-- `WriteFuse(s, v)` (rules R125, R128), returning DONE where no poll timed out. -/
def writeFuseBody (s : Fuse) (v : Byte) : List Stmt :=
  [.send .enterFuseWrite, .send (.loadData v), .send (.writeStrobeA s), .send (.writeStrobeB s)] ++ pollBody ++
  [.send .writeEnd] ++ pollBody ++ [.wrote s .done]

/-- ENTER after its phase check (rule R142). -/
def enterProgram (p : Params) : List Stmt :=
  [.dir .unavailable allOut, .set .abort restReset, .phase .poweredReset, .delay p.tPwrSettleUs,
   .set .abort hvApplied, .phase .highVoltageApplied, .delay p.tHvSettleUs, .phase .stableEnable,
   .dir .abort doutIn, .delay p.tSdoReleaseUs, .phase .ready, .finish .ok]

/-- EXIT (rule R143). -/
def exitProgram : List Stmt := [.set .exitFailed exitLevels, .phase .idle, .finish .ok]

/-- FRAME d, i (rule R112). -/
def frameProgram (d i : Byte) : List Stmt := [.transfer d i, .finish .ok]

/-- RDFUSE s (rule R123). -/
def rdfuseProgram (s : Fuse) : List Stmt := [.readFuse s, .storeCur s, .finish .ok]

/-- RDSIG j (rule R124). -/
def rdsigProgram (j : SigIndex) : List Stmt := [.readSig j, .storeSig j, .finish .ok]

/-- WRFUSE s, v (rule R129). -/
def wrfuseProgram (s : Fuse) (v : Byte) : List Stmt := [.writeFuse s v, .finish .written]

/-- `ApplyIdentify()` (rule R176): one assignment of a register the host reads at a time, `DEF` in the order L, H, E
(log entry 1). -/
def applyIdentifyBody : List Stmt := [.identifyMatch, .identifyDef .low, .identifyDef .high, .identifyDef .ext]

/-- IDENT (rule R166). -/
def identProgram : List Stmt := [.applyIdentify, .finish .identified]

/-- `for j = 0 to 2: SIG[j] <- ReadSig(j)` (rules R167, R168). -/
def readSignature : List Stmt :=
  [.readSig 0, .storeSig 0, .readSig 1, .storeSig 1, .readSig 2, .storeSig 2]

/-- `CUR[L] <- ReadFuse(L); CUR[H] <- ReadFuse(H); CUR[E] <- ReadFuse(E)` (rules R167, R168). -/
def readCurrent : List Stmt :=
  [.readFuse .low, .storeCur .low, .readFuse .high, .storeCur .high, .readFuse .ext, .storeCur .ext]

/-- `VER[L] <- ReadFuse(L); VER[H] <- ReadFuse(H); VER[E] <- ReadFuse(E)` (rule R168). -/
def readVerify : List Stmt :=
  [.readFuse .low, .storeVer .low, .readFuse .high, .storeVer .high, .readFuse .ext, .storeVer .ext]

/-- READALL (rule R167). -/
def readallProgram : List Stmt := readSignature ++ [.applyIdentify] ++ readCurrent ++ [.finish .identified]

/-- `MATCH <- 0x00; DEF[L,H,E] <- 0x00; VER[L,H,E] <- 0x00; WROUT <- 0x00` (rule R168), one register the host reads at a
time, a group in the order L, H, E (log entry 1). -/
def clearPlan : List Stmt :=
  [.clearMatch, .clearDef .low, .clearDef .high, .clearDef .ext, .clearVer .low, .clearVer .high, .clearVer .ext,
   .clearWrout]

/-- What RESTORE does for an unknown device (rules R168, R171):
`WROUT.WL <- 3; WROUT.WH <- 3; WROUT.WE <- 3; ERR <- 4; end`. -/
def unknownEnd : List Stmt := [.wrote .low .skipped, .wrote .high .skipped, .wrote .ext .skipped, .finish .identified]

/-- RESTORE (rule R168). -/
def restoreProgram : List Stmt :=
  clearPlan ++ readSignature ++ [.applyIdentify] ++ readCurrent ++
  [.unlessFoundEnd, .clearTimeout, .writeDefault .low, .writeDefault .high, .writeExtended] ++
  readVerify ++ [.verify, .finish .written]

end Sys2Proof.Machine
end

