-- ==== Sys2Proof/Machine/Sequencer.lean ====
section
/-! DEFINITION. The sequencer (`10_state.md` rule R27): the effect of one statement, and the block's advance by a number
of statements. One statement is one transport event with the assignments that use its answer, or one internal step
(log entry 1). -/

namespace Sys2Proof.Machine

/-- A call of a procedure: its statements come before those that remain. -/
def call (body : List Stmt) (s : State) : State := { s with pos := body ++ s.pos }

/-- The head of `TransferFrame(d, i)` (rule R105): the arguments are latched and the frame's statements are next. -/
def startFrame (d i : Byte) (s : State) : State :=
  call frameBody { s with fcD := d, fcI := i, fcR := 0, fcK := 0 }

/-- What a main cycle does with its sample (rule R105): it is shifted into `FC_R`, and the cycle is counted. -/
def takeBit (k : Fin 8) (b : Bool) (s : State) : State :=
  { s with fcR := shiftIn s.fcR b, fcK := ⟨8 - k.val, by omega⟩ }

/-- The outcome a command ends with when no transport call failed (rules R129, R166 to R168, R198). -/
def outcomeOf (e : Ending) (s : State) : ErrCode :=
  match e with
  | .ok => .ok
  | .identified => if s.ident.found then .ok else .unknownDevice
  | .written => if s.timedOut then .writeTimeout else .ok

/-- `WROUT[s] <- r` and the local `t` (rules R129, R168); with `r` SKIPPED, `t` stays. -/
def recordWrite (f : Fuse) (r : WriteOutcome) (s : State) : State :=
  { s with wrout := wroutSet s.wrout f r, timedOut := s.timedOut || r == .timeout }

/-- RESTORE goes on to its writes, or to its end for an unknown device (rules R168, R171). -/
def unlessFoundEnd (s : State) : State := if s.ident.found then s else { s with pos := unknownEnd }

/-- The write of the extended fuse in RESTORE, skipped where the default is 0xFF (rule R169). -/
def writeExtended (s : State) : State :=
  call (if s.dflt.ext = 0xFF#8 then [.wrote .ext .skipped] else writeFuseBody .ext s.dflt.ext) s

/-- The verify of RESTORE (rule R170). -/
def verifyFuses (s : State) : State :=
  { s with wrout := { s.wrout with verify :=
      if s.ver.low = s.dflt.low ∧ s.ver.high = s.dflt.high ∧ s.ver.ext = s.dflt.ext then .matched else .mismatch } }

/-- The effect of one statement, at a state whose position holds the statements after it. -/
def runStmt (st : Stmt) (s : State) : State :=
  match st with
  | .set p l => setLines p l s
  | .dir p m => dirLines p m s
  | .delay n => delayFor n s
  | .phase p => { s with phase := p }
  | .transfer d i => startFrame d i s
  | .send f => startFrame (frameBytes f).1 (frameBytes f).2 s
  | .driveZero => setLines .abort { s.out with din := false, iin := false, clk := false } s
  | .driveBit k =>
    setLines .abort { s.out with din := s.fcD.getLsbD k.val, iin := s.fcI.getLsbD k.val, clk := false } s
  | .clock b => setLines .abort { s.out with clk := b } s
  | .sampleBit k => sample (takeBit k) s
  | .cycleNo k => { s with fcK := k }
  | .frameEnd => { s with result := s.fcR }
  | .readFuse f => call (readFuseBody f) s
  | .readSig j => call (readSigBody j) s
  | .writeFuse f v => call (writeFuseBody f v) s
  | .writeDefault f => call (writeFuseBody f (fuseGet s.dflt f)) s
  | .pollStart => { s with pollN := 0 }
  | .poll => sample pollSample s
  | .wrote f r => recordWrite f r s
  | .storeCur f => { s with cur := fuseSet s.cur f s.fcR }
  | .storeVer f => { s with ver := fuseSet s.ver f s.fcR }
  | .storeSig j => { s with sig := sigSet s.sig j s.fcR }
  | .applyIdentify => call applyIdentifyBody s
  | .identifyMatch => identifyMatch s
  | .identifyDef f => identifyDef f s
  | .clearMatch => { s with ident := { done := false, found := false, idx := 0 } }
  | .clearDef f => { s with dflt := fuseSet s.dflt f 0x00 }
  | .clearVer f => { s with ver := fuseSet s.ver f 0x00 }
  | .clearWrout =>
    { s with wrout := { wl := .notAttempted, wh := .notAttempted, we := .notAttempted, verify := .notRun } }
  | .unlessFoundEnd => unlessFoundEnd s
  | .clearTimeout => { s with timedOut := false }
  | .writeExtended => writeExtended s
  | .verify => verifyFuses s
  | .finish e => complete (outcomeOf e s) s
  | .abortSet => abortExit s
  | .abortEnd => abortFinish s

/-- The sequencer makes up to n steps; it stops where no statement remains. -/
def advance : Nat → State → State
  | 0, s => s
  | n + 1, s =>
    match s.pos with
    | [] => s
    | st :: rest => advance n (runStmt st { s with pos := rest })

/-- A command runs for the steps the host's turn grants: to its end, or as far as they reach. -/
def runCommand (i : Instr) (program : List Stmt) (s : State) : Host.Outcome State Fault Refusal :=
  .next (advance s.grant (begin i program s))

/-- A frame constant of rule R75 is sent: `TransferFrame` with its bytes is the sequencer's next statement, and the
sequencer goes on for the steps the host's turn grants. -/
def sendFrame (f : FrameName) (s : State) : Host.Outcome State Fault Refusal :=
  .next (advance s.grant { s with pos := .send f :: s.pos })

end Sys2Proof.Machine
end

