-- ==== Sys2Proof/Machine/FrameConst.lean ====
section
/-! DEFINITION. The frame constants (`30_encoding.md` rules R75 to R77): each is `TransferFrame` with its bytes, sent by the block's
own sequencer inside a transaction. Nothing depends on which constant a frame is (rule R78). -/

namespace Sys2Proof.Machine

/-- ENTER_FUSE_READ (rule R75). -/
def execEnterFuseRead (s : State) : Host.Outcome State Fault Refusal :=
  sendFrame .enterFuseRead s

/-- ENTER_SIG_READ (rule R75). -/
def execEnterSigRead (s : State) : Host.Outcome State Fault Refusal :=
  sendFrame .enterSigRead s

/-- ENTER_FUSE_WRITE (rule R75). -/
def execEnterFuseWrite (s : State) : Host.Outcome State Fault Refusal :=
  sendFrame .enterFuseWrite s

/-- LOAD_DATA(v) (rule R75). -/
def execLoadData (v : Byte) (s : State) : Host.Outcome State Fault Refusal :=
  sendFrame (.loadData v) s

/-- SIG_SELECT(0) (rule R75). -/
def execSigSelect0 (s : State) : Host.Outcome State Fault Refusal :=
  sendFrame (.sigSelect 0) s

/-- SIG_SELECT(1) (rule R75). -/
def execSigSelect1 (s : State) : Host.Outcome State Fault Refusal :=
  sendFrame (.sigSelect 1) s

/-- SIG_SELECT(2) (rule R75). -/
def execSigSelect2 (s : State) : Host.Outcome State Fault Refusal :=
  sendFrame (.sigSelect 2) s

/-- SIG_SHIFT_A (rule R75). -/
def execSigShiftA (s : State) : Host.Outcome State Fault Refusal :=
  sendFrame .sigShiftA s

/-- SIG_SHIFT_B (rule R75). -/
def execSigShiftB (s : State) : Host.Outcome State Fault Refusal :=
  sendFrame .sigShiftB s

/-- FUSE_SELECT(L) (rule R75). -/
def execFuseSelectL (s : State) : Host.Outcome State Fault Refusal :=
  sendFrame (.fuseSelect .low) s

/-- FUSE_SHIFT(L) (rule R75). -/
def execFuseShiftL (s : State) : Host.Outcome State Fault Refusal :=
  sendFrame (.fuseShift .low) s

/-- FUSE_SELECT(H) (rule R75). -/
def execFuseSelectH (s : State) : Host.Outcome State Fault Refusal :=
  sendFrame (.fuseSelect .high) s

/-- FUSE_SHIFT(H) (rule R75). -/
def execFuseShiftH (s : State) : Host.Outcome State Fault Refusal :=
  sendFrame (.fuseShift .high) s

/-- FUSE_SELECT(E) (rule R75). -/
def execFuseSelectE (s : State) : Host.Outcome State Fault Refusal :=
  sendFrame (.fuseSelect .ext) s

/-- FUSE_SHIFT(E) (rule R75). -/
def execFuseShiftE (s : State) : Host.Outcome State Fault Refusal :=
  sendFrame (.fuseShift .ext) s

/-- WRITE_STROBE_A(L) (rule R75). -/
def execWriteStrobeAL (s : State) : Host.Outcome State Fault Refusal :=
  sendFrame (.writeStrobeA .low) s

/-- WRITE_STROBE_B(L) (rule R75). -/
def execWriteStrobeBL (s : State) : Host.Outcome State Fault Refusal :=
  sendFrame (.writeStrobeB .low) s

/-- WRITE_STROBE_A(H) (rule R75). -/
def execWriteStrobeAH (s : State) : Host.Outcome State Fault Refusal :=
  sendFrame (.writeStrobeA .high) s

/-- WRITE_STROBE_B(H) (rule R75). -/
def execWriteStrobeBH (s : State) : Host.Outcome State Fault Refusal :=
  sendFrame (.writeStrobeB .high) s

/-- WRITE_STROBE_A(E) (rule R75). -/
def execWriteStrobeAE (s : State) : Host.Outcome State Fault Refusal :=
  sendFrame (.writeStrobeA .ext) s

/-- WRITE_STROBE_B(E) (rule R75). -/
def execWriteStrobeBE (s : State) : Host.Outcome State Fault Refusal :=
  sendFrame (.writeStrobeB .ext) s

/-- WRITE_END (rule R75). -/
def execWriteEnd (s : State) : Host.Outcome State Fault Refusal :=
  sendFrame .writeEnd s


end Sys2Proof.Machine
end

