-- ==== Sys2Proof/Machine/Session.lean ====
section
/-! DEFINITION. Mode entry and exit (`42_session.md`): ENTER and EXIT. -/

namespace Sys2Proof.Machine

/-- ENTER (rule R142). -/
def execEnter (s : State) : Host.Outcome State Fault Refusal :=
  runCommand .enter (enterProgram s.setup.params) s

/-- EXIT (rule R143). -/
def execExit (s : State) : Host.Outcome State Fault Refusal :=
  runCommand .exit exitProgram s


end Sys2Proof.Machine
end

