-- ==== Sys2Proof/Machine/Transaction.lean ====
section
/-! DEFINITION. The bare frame and the transactions as commands (`40_frame_codec.md` rule R112, `41_fuse_signature_ops.md` rules
R123, R124, R129): FRAME, RDFUSE, RDSIG and WRFUSE. -/

namespace Sys2Proof.Machine

/-- FRAME d, i (rule R112). -/
def execFrame (d i : Byte) (s : State) : Host.Outcome State Fault Refusal :=
  runCommand (.frame d i) (frameProgram d i) s

/-- RDFUSE L (rule R123). -/
def execRdfuseL (s : State) : Host.Outcome State Fault Refusal :=
  runCommand .rdfuseL (rdfuseProgram .low) s

/-- RDFUSE H (rule R123). -/
def execRdfuseH (s : State) : Host.Outcome State Fault Refusal :=
  runCommand .rdfuseH (rdfuseProgram .high) s

/-- RDFUSE E (rule R123). -/
def execRdfuseE (s : State) : Host.Outcome State Fault Refusal :=
  runCommand .rdfuseE (rdfuseProgram .ext) s

/-- RDSIG 0 (rule R124). -/
def execRdsig0 (s : State) : Host.Outcome State Fault Refusal :=
  runCommand .rdsig0 (rdsigProgram 0) s

/-- RDSIG 1 (rule R124). -/
def execRdsig1 (s : State) : Host.Outcome State Fault Refusal :=
  runCommand .rdsig1 (rdsigProgram 1) s

/-- RDSIG 2 (rule R124). -/
def execRdsig2 (s : State) : Host.Outcome State Fault Refusal :=
  runCommand .rdsig2 (rdsigProgram 2) s

/-- WRFUSE L, v (rule R129). -/
def execWrfuseL (v : Byte) (s : State) : Host.Outcome State Fault Refusal :=
  runCommand (.wrfuseL v) (wrfuseProgram .low v) s

/-- WRFUSE H, v (rule R129). -/
def execWrfuseH (v : Byte) (s : State) : Host.Outcome State Fault Refusal :=
  runCommand (.wrfuseH v) (wrfuseProgram .high v) s

/-- WRFUSE E, v (rule R129). -/
def execWrfuseE (v : Byte) (s : State) : Host.Outcome State Fault Refusal :=
  runCommand (.wrfuseE v) (wrfuseProgram .ext v) s


end Sys2Proof.Machine
end

