-- ==== Sys2Proof/Machine/Workflow.lean ====
section
/-! DEFINITION. The Device Matcher's command and the operation plans (`43_catalog_workflow.md` rules R166 to R168): IDENT, READALL
and RESTORE. -/

namespace Sys2Proof.Machine

/-- IDENT (rule R166). -/
def execIdent (s : State) : Host.Outcome State Fault Refusal :=
  runCommand .ident identProgram s

/-- READALL (rule R167). -/
def execReadall (s : State) : Host.Outcome State Fault Refusal :=
  runCommand .readall readallProgram s

/-- RESTORE (rule R168). -/
def execRestore (s : State) : Host.Outcome State Fault Refusal :=
  runCommand .restore restoreProgram s


end Sys2Proof.Machine
end

