-- ==== Sys2Proof/Machine/Dispatch.lean ====
section
/-! DEFINITION. The meaning of every instruction of the opcode table: one arm per constructor of `Instr`. A host
command's meaning stands at the state in which the command was accepted; a frame constant's at the state whose position
holds the statements after the frame. -/

namespace Sys2Proof.Machine

def exec (i : Instr) (s : State) : Host.Outcome State Fault Refusal :=
  match i with
  | .enter => Sys2Proof.Machine.execEnter s
  | .exit => Sys2Proof.Machine.execExit s
  | .frame d b => Sys2Proof.Machine.execFrame d b s
  | .rdfuseL => Sys2Proof.Machine.execRdfuseL s
  | .rdfuseH => Sys2Proof.Machine.execRdfuseH s
  | .rdfuseE => Sys2Proof.Machine.execRdfuseE s
  | .rdsig0 => Sys2Proof.Machine.execRdsig0 s
  | .rdsig1 => Sys2Proof.Machine.execRdsig1 s
  | .rdsig2 => Sys2Proof.Machine.execRdsig2 s
  | .wrfuseL v => Sys2Proof.Machine.execWrfuseL v s
  | .wrfuseH v => Sys2Proof.Machine.execWrfuseH v s
  | .wrfuseE v => Sys2Proof.Machine.execWrfuseE v s
  | .ident => Sys2Proof.Machine.execIdent s
  | .readall => Sys2Proof.Machine.execReadall s
  | .restore => Sys2Proof.Machine.execRestore s
  | .enterFuseRead => Sys2Proof.Machine.execEnterFuseRead s
  | .enterSigRead => Sys2Proof.Machine.execEnterSigRead s
  | .enterFuseWrite => Sys2Proof.Machine.execEnterFuseWrite s
  | .loadData v => Sys2Proof.Machine.execLoadData v s
  | .sigSelect0 => Sys2Proof.Machine.execSigSelect0 s
  | .sigSelect1 => Sys2Proof.Machine.execSigSelect1 s
  | .sigSelect2 => Sys2Proof.Machine.execSigSelect2 s
  | .sigShiftA => Sys2Proof.Machine.execSigShiftA s
  | .sigShiftB => Sys2Proof.Machine.execSigShiftB s
  | .fuseSelectL => Sys2Proof.Machine.execFuseSelectL s
  | .fuseShiftL => Sys2Proof.Machine.execFuseShiftL s
  | .fuseSelectH => Sys2Proof.Machine.execFuseSelectH s
  | .fuseShiftH => Sys2Proof.Machine.execFuseShiftH s
  | .fuseSelectE => Sys2Proof.Machine.execFuseSelectE s
  | .fuseShiftE => Sys2Proof.Machine.execFuseShiftE s
  | .writeStrobeAL => Sys2Proof.Machine.execWriteStrobeAL s
  | .writeStrobeBL => Sys2Proof.Machine.execWriteStrobeBL s
  | .writeStrobeAH => Sys2Proof.Machine.execWriteStrobeAH s
  | .writeStrobeBH => Sys2Proof.Machine.execWriteStrobeBH s
  | .writeStrobeAE => Sys2Proof.Machine.execWriteStrobeAE s
  | .writeStrobeBE => Sys2Proof.Machine.execWriteStrobeBE s
  | .writeEnd => Sys2Proof.Machine.execWriteEnd s

end Sys2Proof.Machine
end

