-- ==== Sys2Proof/Machine/Fetch.lean ====
section
/-! DEFINITION. What the block does next (`20_memory.md` rules R52, R53, `60_exceptions.md` rules R200, R202): the host's
next turn is taken, and the instruction to run is found, with the state it runs at. -/

namespace Sys2Proof.Machine

/-- What a step runs: an instruction, or the block's own advance. -/
inductive Fetched where
  /-- an instruction, at the state its meaning stands at -/
  | instr (i : Instr) (s : State)
  /-- no instruction begins: the sequencer goes on from this state -/
  | proceed (s : State)
  deriving DecidableEq, Repr

/-- The host's next turn. A host whose turns are used up waits, and the block makes one step (log entry 2). -/
def nextTurn (s : State) : Turn :=
  match s.turns with
  | [] => { act := .wait, grant := 1 }
  | t :: _ => t

/-- The state in which the host's turn was taken. -/
def takeTurn (s : State) : State := { s with turns := s.turns.tail, grant := (nextTurn s).grant }

/-- A host read: the register's value goes to the host, and no state of the block changes (rule R52). -/
def noteRead (a : RegAddr) (s : State) : State := { s with seen := s.seen ++ [(a, hostRead s a)] }

/-- `WAIT` (rule R85): the host reads STATUS, and does so again in its next turn while `BUSY = 1`. -/
def waitDone (s : State) : State :=
  noteRead 0x00 (if s.busy then { s with turns := { act := .waitDone, grant := s.grant } :: s.turns } else s)

/-- While a command runs, the sequencer's next statement may be a frame constant: that is the instruction that runs.
Any other statement is the sequencer's own. -/
def fetchStatement (s : State) : Fetched :=
  match s.pos with
  | .send f :: rest => .instr (frameInstr f) { s with pos := rest }
  | _ => .proceed s

/-- A command word on the command port (rules R53, R82, R196, R200, R202): dropped while a command runs; else accepted,
and decoded to an instruction or completed at once as illegal. -/
def presentWord (w : CmdWord) (s : State) : Fetched :=
  if s.busy then .proceed s
  else match decode w with
    | .ok i => .instr i (accept w s)
    | .error _ => .proceed (illegalCommand (accept w s))

/-- What the host's action leads to, at the state in which its turn was taken. -/
def actOn (a : HostAct) (s : State) : Fetched :=
  match a with
  | .wait => fetchStatement s
  | .cmd w => presentWord w s
  | .read r => .proceed (noteRead r s)
  | .waitDone => .proceed (waitDone s)
  | .reset => .proceed (blockReset s)

/-- What the block does next. -/
def fetch (s : State) : Fetched := actOn (nextTurn s).act (takeTurn s)

/-- The steps a host's turn grants where `withFetchWord` presents a command: more than the longest command makes when
every poll finds the line high (log entry 10). -/
def fetchGrant : Nat := 4096

/-- A host command word where the next step fetches it: the block is not busy and the host's next turn presents it. -/
def placeCommand (w : CmdWord) (s : State) : State :=
  { s with busy := false, pos := [], turns := { act := .cmd w, grant := fetchGrant } :: s.turns }

/-- A frame constant where the next step fetches it: a command runs, its next statement is the frame, and the host
waits. Where no statement remained, the command's completion follows the frame. -/
def placeFrame (f : FrameName) (s : State) : State :=
  { s with
    busy := true
    pos := .send f :: (if s.pos = [] then [.finish .ok] else s.pos)
    turns := { act := .wait, grant := fetchGrant } :: s.turns }

end Sys2Proof.Machine
end

