-- ==== Sys2Proof/Machine/Step.lean ====
section
/-! DEFINITION. One step of the machine: the host's next turn, and the block's steps in it. -/

namespace Sys2Proof.Machine

/-- One step: what `fetch` finds is run. -/
def step (s : State) : Host.Outcome State Fault Refusal :=
  match fetch s with
  | .instr i t => exec i t
  | .proceed t => .next (advance t.grant t)

/-- The state in which the next step fetches and runs exactly the instruction whose bits are w. A word of a width or
key that stands for no instruction is placed nowhere. -/
def State.withFetchWord (s : State) (nbits w : Nat) : State :=
  if nbits = 24 then placeCommand (BitVec.ofNat 24 w) s
  else if nbits = 16 then
    match decodeFrame (BitVec.ofNat 16 w) with
    | .ok f => placeFrame f s
    | .error _ => s
  else s

end Sys2Proof.Machine
end

