-- ==== Sys2Proof/Safety.lean ====
section
/-! DEFINITION. The terms claims use: what the answers of the transport must be for a frame, a poll or a write to go
on, what each of these leaves in the state, how many steps of the sequencer it takes, and what holds of every state the
machine reaches. The functions here are written from the tables and sentences of the spec, not from the sequencer. -/

namespace Sys2Proof.Machine

/-! ## Instructions by operand -/

/-- RDFUSE s (rule R123). -/
def rdfuseInstr : Fuse → Instr
  | .low => .rdfuseL
  | .high => .rdfuseH
  | .ext => .rdfuseE

/-- RDSIG j (rule R124). -/
def rdsigInstr (j : SigIndex) : Instr :=
  match j with
  | 0 => .rdsig0
  | 1 => .rdsig1
  | 2 => .rdsig2

/-- WRFUSE s, v (rule R129). -/
def wrfuseInstr (s : Fuse) (v : Byte) : Instr :=
  match s with
  | .low => .wrfuseL v
  | .high => .wrfuseH v
  | .ext => .wrfuseE v

/-- The host command word of an instruction, for the rows of format HOSTCMD (rule R84). -/
def commandOf (i : Instr) : Option CmdWord :=
  match encode i with
  | .command w => some w
  | .frame _ => none

/-- The phases rule R197's table allows a command in. A frame constant is no command. -/
def allowedPhases : Instr → List Phase
  | .enter => [.idle]
  | .exit => [.idle, .ready]
  | .frame _ _ | .rdfuseL | .rdfuseH | .rdfuseE | .rdsig0 | .rdsig1 | .rdsig2
  | .wrfuseL _ | .wrfuseH _ | .wrfuseE _ | .readall | .restore => [.ready]
  | .ident => [.idle, .poweredReset, .highVoltageApplied, .stableEnable, .ready]
  | .enterFuseRead | .enterSigRead | .enterFuseWrite | .loadData _ | .sigSelect0 | .sigSelect1 | .sigSelect2
  | .sigShiftA | .sigShiftB | .fuseSelectL | .fuseShiftL | .fuseSelectH | .fuseShiftH | .fuseSelectE | .fuseShiftE
  | .writeStrobeAL | .writeStrobeBL | .writeStrobeAH | .writeStrobeBH | .writeStrobeAE | .writeStrobeBE
  | .writeEnd => []

/-- The registers a row of rule R37's table lists. -/
structure WriteSet where
  out : Bool := false
  dir : Bool := false
  phase : Bool := false
  inLast : Bool := false
  result : Bool := false
  sig : SigIndex → Bool := fun _ => false
  cur : Fuse → Bool := fun _ => false
  ident : Bool := false
  dflt : Bool := false
  ver : Bool := false
  wrout : Fuse → Bool := fun _ => false
  verify : Bool := false

/-- `OUT, IN_LAST, RESULT`: what any command that sends frames writes. -/
def WriteSet.frames : WriteSet := { out := true, inLast := true, result := true }

/-- Rule R37's table. A frame constant is no command and has no row. -/
def writesOf : Instr → WriteSet
  | .enter => { out := true, dir := true, phase := true }
  | .exit => { out := true, phase := true }
  | .frame _ _ => .frames
  | .rdfuseL => { WriteSet.frames with cur := (· == .low) }
  | .rdfuseH => { WriteSet.frames with cur := (· == .high) }
  | .rdfuseE => { WriteSet.frames with cur := (· == .ext) }
  | .rdsig0 => { WriteSet.frames with sig := (· == 0) }
  | .rdsig1 => { WriteSet.frames with sig := (· == 1) }
  | .rdsig2 => { WriteSet.frames with sig := (· == 2) }
  | .wrfuseL _ => { WriteSet.frames with wrout := (· == .low) }
  | .wrfuseH _ => { WriteSet.frames with wrout := (· == .high) }
  | .wrfuseE _ => { WriteSet.frames with wrout := (· == .ext) }
  | .ident => { ident := true, dflt := true }
  | .readall => { WriteSet.frames with sig := fun _ => true, cur := fun _ => true, ident := true, dflt := true }
  | .restore =>
    { WriteSet.frames with
      sig := fun _ => true, cur := fun _ => true, ident := true, dflt := true, ver := true
      wrout := fun _ => true, verify := true }
  | .enterFuseRead | .enterSigRead | .enterFuseWrite | .loadData _ | .sigSelect0 | .sigSelect1 | .sigSelect2
  | .sigShiftA | .sigShiftB | .fuseSelectL | .fuseShiftL | .fuseSelectH | .fuseShiftH | .fuseSelectE | .fuseShiftE
  | .writeStrobeAL | .writeStrobeBL | .writeStrobeAH | .writeStrobeBH | .writeStrobeAE | .writeStrobeBE
  | .writeEnd => {}

/-- Every register a row of rule R37 does not list keeps its value from `s` to `t`. A phase that is not listed may
become Idle by an abort only (rules R37, R193). -/
def keepsUnlisted (w : WriteSet) (s t : State) : Prop :=
  (w.out = false → t.out = s.out) ∧
  (w.dir = false → t.dir = s.dir) ∧
  (w.phase = false → t.phase = s.phase ∨ (t.phase = .idle ∧ t.err = .transportIoFailure ∧ t.busy = false)) ∧
  (w.inLast = false → t.inLast = s.inLast) ∧
  (w.result = false → t.result = s.result) ∧
  (∀ j, w.sig j = false → sigGet t.sig j = sigGet s.sig j) ∧
  (∀ f, w.cur f = false → fuseGet t.cur f = fuseGet s.cur f) ∧
  (w.ident = false → t.ident = s.ident) ∧
  (w.dflt = false → t.dflt = s.dflt) ∧
  (w.ver = false → t.ver = s.ver) ∧
  (∀ f, w.wrout f = false → wroutGet t.wrout f = wroutGet s.wrout f) ∧
  (w.verify = false → t.wrout.verify = s.wrout.verify)

/-! ## Events -/

/-- The call an event is (rule R56). -/
inductive CallKind where
  | set
  | dir
  | read
  | delay
  deriving DecidableEq, Repr

/-- The call an event is. -/
def callKind : Event → CallKind
  | .set _ _ => .set
  | .dir _ _ => .dir
  | .read _ => .read
  | .delay _ _ => .delay

/-- The call that failed, in the place of the one that did not. -/
def failed : Event → Event
  | .set l _ => .set l false
  | .dir m _ => .dir m false
  | .read _ => .read none
  | .delay n lasted => .delay n lasted

/-- How many events raise the clock from 0 to 1, where it stands at c before them (rule R109). -/
def clockRises (c : Bool) : List Event → Nat
  | [] => 0
  | .set l _ :: rest => (if !c && l.clk then 1 else 0) + clockRises l.clk rest
  | .dir _ _ :: rest => clockRises c rest
  | .read _ :: rest => clockRises c rest
  | .delay _ _ :: rest => clockRises c rest

/-- How many events lower the clock from 1 to 0. -/
def clockFalls (c : Bool) : List Event → Nat
  | [] => 0
  | .set l _ :: rest => (if c && !l.clk then 1 else 0) + clockFalls l.clk rest
  | .dir _ _ :: rest => clockFalls c rest
  | .read _ :: rest => clockFalls c rest
  | .delay _ _ :: rest => clockFalls c rest

/-- The call a statement makes whose failure is the abort's (rules R192, R193), as the event a failure records; `none`
for a statement that makes no call, or whose failure is not the abort's with its exit SET. -/
def abortingCall (s : State) : Stmt → Option Event
  | .set .abort l => some (.set l false)
  | .dir .abort m => some (.dir m false)
  | .driveZero => some (.set { s.out with din := false, iin := false, clk := false } false)
  | .driveBit k =>
    some (.set { s.out with din := s.fcD.getLsbD k.val, iin := s.fcI.getLsbD k.val, clk := false } false)
  | .clock b => some (.set { s.out with clk := b } false)
  | .sampleBit _ => some (.read none)
  | .poll => some (.read none)
  | _ => none

/-! ## Frames -/

/-- None of the next n transport calls fails. -/
def noFailure (n : Nat) (s : State) : Prop := ∀ k, k < n → (answerAt s k).fails = false

/-- The lines with `din = iin = clk = 0`, the others unchanged (rule R108). -/
def quiet (l : Lines) : Lines := { l with din := false, iin := false, clk := false }

/-- The byte of eight samples, the first one its most significant bit (rule R107). -/
def byteOfSamples (b : Nat → Bool) : Byte :=
  BitVec.ofBool (b 0) ++ BitVec.ofBool (b 1) ++ BitVec.ofBool (b 2) ++ BitVec.ofBool (b 3) ++
  BitVec.ofBool (b 4) ++ BitVec.ofBool (b 5) ++ BitVec.ofBool (b 6) ++ BitVec.ofBool (b 7)

/-- The m-th sample of a frame that begins n transport calls from now: it is that frame's call 3 + 4 m (rule R109). -/
def sampleAt (s : State) (n m : Nat) : Bool := (answerAt s (n + 3 + 4 * m)).level

/-- The byte a frame returns that begins n transport calls from now. -/
def byteAt (s : State) (n : Nat) : Byte := byteOfSamples (sampleAt s n)

/-- The three SETs of a clock cycle that carries the given levels on `din` and `iin` (rule R72). -/
def cycleEvents (l : Lines) (din iin : Bool) : List Event :=
  [.set { l with din := din, iin := iin, clk := false } true,
   .set { l with din := din, iin := iin, clk := true } true,
   .set { l with din := din, iin := iin, clk := false } true]

/-- The main cycle m + 1 of a frame (rule R72): the READ that gives r[7-m], then d[7-m] and i[7-m]. -/
def mainCycleEvents (l : Lines) (d i : Byte) (b : Nat → Bool) (m : Nat) : List Event :=
  .read (some (b m)) :: cycleEvents l (d.getLsbD (7 - m)) (i.getLsbD (7 - m))

/-- The 40 events of a frame with no failure (rules R72, R109), where l gives the levels of `rst` and `dout`. -/
def frameEvents (l : Lines) (d i : Byte) (b : Nat → Bool) : List Event :=
  cycleEvents l false false ++
  mainCycleEvents l d i b 0 ++ mainCycleEvents l d i b 1 ++ mainCycleEvents l d i b 2 ++ mainCycleEvents l d i b 3 ++
  mainCycleEvents l d i b 4 ++ mainCycleEvents l d i b 5 ++ mainCycleEvents l d i b 6 ++ mainCycleEvents l d i b 7 ++
  cycleEvents l false false ++
  [.set { l with din := false, iin := false, clk := true } true, .set { l with din := false, iin := false, clk := false } true]

/-- What a frame that completes leaves (rules R105, R107, R108). The position is the caller's. -/
def afterFrame (d i : Byte) (s : State) : State :=
  { drawn 40 s with
    out := quiet s.out
    inLast := sampleAt s 0 7
    fcD := d
    fcI := i
    fcR := byteAt s 0
    fcK := 10
    result := byteAt s 0
    trace := s.trace ++ frameEvents s.out d i (sampleAt s 0) }

/-- What frames leave that are sent one after another. -/
def afterFrames : List (Byte × Byte) → State → State
  | [], s => s
  | f :: fs, s => afterFrames fs (afterFrame f.1 f.2 s)

/-- The sequencer steps of one frame: the call, 40 events, two cycle numbers and the return. -/
def frameSteps : Nat := 44

/-- The frames of `ReadFuse(s)` (rules R76, R120). -/
def readFuseFrames : Fuse → List (Byte × Byte)
  | .low => [(0x04#8, 0x4C#8), (0x00#8, 0x68#8), (0x00#8, 0x6C#8)]
  | .high => [(0x04#8, 0x4C#8), (0x00#8, 0x7A#8), (0x00#8, 0x7E#8)]
  | .ext => [(0x04#8, 0x4C#8), (0x00#8, 0x6A#8), (0x00#8, 0x6E#8)]

/-- The frames of `ReadSig(j)` (rule R121). -/
def readSigFrames (j : SigIndex) : List (Byte × Byte) :=
  [(0x08#8, 0x4C#8), (BitVec.ofNat 8 j.val, 0x0C#8), (0x00#8, 0x68#8), (0x00#8, 0x6C#8)]

/-- The frames of `WriteFuse(s, v)` before its first poll (rules R77, R125). -/
def writeFuseFrames (s : Fuse) (v : Byte) : List (Byte × Byte) :=
  match s with
  | .low => [(0x40#8, 0x4C#8), (v, 0x2C#8), (0x00#8, 0x64#8), (0x00#8, 0x6C#8)]
  | .high => [(0x40#8, 0x4C#8), (v, 0x2C#8), (0x00#8, 0x74#8), (0x00#8, 0x7C#8)]
  | .ext => [(0x40#8, 0x4C#8), (v, 0x2C#8), (0x00#8, 0x66#8), (0x00#8, 0x6E#8)]

/-! ## Polls -/

/-- The transport calls from one sample of a poll to the next: the READ, and a DELAY where there is one. -/
def pollStride (s : State) : Nat := if 0 < s.setup.params.pollIntervalUs then 2 else 1

/-- The j-th sample of a poll that begins now is low, and its call does not fail. -/
def pollLow (s : State) (j : Nat) : Prop :=
  (answerAt s (pollStride s * j)).fails = false ∧ (answerAt s (pollStride s * j)).level = false

/-- The j-th sample of a poll that begins now is high, and its call does not fail. -/
def pollHigh (s : State) (j : Nat) : Prop :=
  (answerAt s (pollStride s * j)).fails = false ∧ (answerAt s (pollStride s * j)).level = true

/-- `POLL_LIMIT` lets a poll take one more sample after k low ones (rule R126). -/
def pollMayGoOn (s : State) (k : Nat) : Prop := ∀ l, s.setup.params.pollLimit = some l → k < l

/-- The events of one low sample after which the poll goes on. -/
def pollLowEvents (s : State) (j : Nat) : List Event :=
  if 0 < s.setup.params.pollIntervalUs then
    [.read (some false),
     .delay s.setup.params.pollIntervalUs (s.setup.params.pollIntervalUs + (answerAt s (2 * j + 1)).late)]
  else [.read (some false)]

/-- The events of k low samples after each of which the poll goes on. -/
def pollWait (s : State) : Nat → List Event
  | 0 => []
  | k + 1 => pollWait s k ++ pollLowEvents s k

/-- How a completion poll ends (rule R126). -/
inductive PollRun where
  /-- READY: k low samples and then a high one -/
  | ready (k : Nat)
  /-- TIMEOUT: k + 1 low samples, and k + 1 is `POLL_LIMIT` -/
  | timeout (k : Nat)
  deriving DecidableEq, Repr

/-- The transport's answers make a poll that begins now end so. -/
def pollRuns (r : PollRun) (s : State) : Prop :=
  match r with
  | .ready k => (∀ j, j < k → pollLow s j) ∧ pollHigh s k ∧ pollMayGoOn s k
  | .timeout k => (∀ j, j < k + 1 → pollLow s j) ∧ s.setup.params.pollLimit = some (k + 1)

/-- What a poll leaves (rules R126, R127): `IN_LAST`, `POLL_N` and the trace; no line changes. -/
def afterPoll (r : PollRun) (s : State) : State :=
  match r with
  | .ready k =>
    { drawn (pollStride s * k + 1) s with
      inLast := true, pollN := k, trace := s.trace ++ (pollWait s k ++ [.read (some true)]) }
  | .timeout k =>
    { drawn (pollStride s * k + 1) s with
      inLast := false, pollN := k + 1, trace := s.trace ++ (pollWait s k ++ [.read (some false)]) }

/-- The sequencer steps of a poll: its start, and one for each event. -/
def pollSteps (r : PollRun) (s : State) : Nat :=
  match r with
  | .ready k => pollStride s * k + 2
  | .timeout k => pollStride s * k + 2

/-! ## Writes -/

/-- How a fuse write ends (rules R125, R128): its first poll times out, its second does, or both see the line high. -/
inductive WriteRun where
  | firstTimeout (k : Nat)
  | secondTimeout (k1 k2 : Nat)
  | done (k1 k2 : Nat)
  deriving DecidableEq, Repr

/-- The outcome the byte's `WROUT` field records (rules R35, R129). -/
def writeOutcome : WriteRun → WriteOutcome
  | .firstTimeout _ => .timeout
  | .secondTimeout _ _ => .timeout
  | .done _ _ => .done

/-- How the first poll of a write ends. -/
def firstPoll : WriteRun → PollRun
  | .firstTimeout k => .timeout k
  | .secondTimeout k1 _ => .ready k1
  | .done k1 _ => .ready k1

/-- How the second poll of a write ends, where there is one (rule R128). -/
def secondPoll : WriteRun → Option PollRun
  | .firstTimeout _ => none
  | .secondTimeout _ k2 => some (.timeout k2)
  | .done _ k2 => some (.ready k2)

/-- The state in which the first poll of a write ended. -/
def afterFirstPoll (f : Fuse) (v : Byte) (w : WriteRun) (s : State) : State :=
  afterPoll (firstPoll w) (afterFrames (writeFuseFrames f v) s)

/-- The transport's answers make a write that begins now run so. -/
def writeRuns (f : Fuse) (v : Byte) (w : WriteRun) (s : State) : Prop :=
  noFailure 160 s ∧ pollRuns (firstPoll w) (afterFrames (writeFuseFrames f v) s) ∧
  match secondPoll w with
  | none => True
  | some r =>
    noFailure 40 (afterFirstPoll f v w s) ∧ pollRuns r (afterFrame 0x00#8 0x4C#8 (afterFirstPoll f v w s))

/-- What a write leaves (rules R125, R128, R129): frames and polls, and then the byte's `WROUT` field. -/
def afterWrite (f : Fuse) (v : Byte) (w : WriteRun) (s : State) : State :=
  recordWrite f (writeOutcome w)
    (match secondPoll w with
     | none => afterFirstPoll f v w s
     | some r => afterPoll r (afterFrame 0x00#8 0x4C#8 (afterFirstPoll f v w s)))

/-- The sequencer steps of a write: the call, four frames and a poll, a frame and a poll, and the return. -/
def writeSteps (f : Fuse) (v : Byte) (w : WriteRun) (s : State) : Nat :=
  2 + 4 * frameSteps + pollSteps (firstPoll w) (afterFrames (writeFuseFrames f v) s) +
  match secondPoll w with
  | none => 0
  | some r => frameSteps + pollSteps r (afterFrame 0x00#8 0x4C#8 (afterFirstPoll f v w s))

/-! ## Plans -/

/-- What reading the signature leaves (rules R167, R168): twelve frames, and the fourth, eighth and twelfth byte. -/
def afterSignature (s : State) : State :=
  { afterFrames (readSigFrames 0 ++ readSigFrames 1 ++ readSigFrames 2) s with
    sig := { b0 := byteAt s 120, b1 := byteAt s 280, b2 := byteAt s 440 } }

/-- The three fuse bytes read by nine frames that begin now (rules R167, R168). -/
def fusesRead (s : State) : FuseSet := { low := byteAt s 80, high := byteAt s 200, ext := byteAt s 320 }

/-- What the nine frames of reading the three fuses leave. -/
def afterFuseFrames (s : State) : State :=
  afterFrames (readFuseFrames .low ++ readFuseFrames .high ++ readFuseFrames .ext) s

/-- What reading the current FuseSet leaves. -/
def afterCurrent (s : State) : State := { afterFuseFrames s with cur := fusesRead s }

/-- What reading the fuses for the verify, and the verify, leave (rules R168, R170). -/
def afterVerify (s : State) : State :=
  { afterFuseFrames s with
    ver := fusesRead s
    wrout := { s.wrout with verify := if fusesRead s = s.dflt then .matched else .mismatch } }

/-- What the matcher leaves in `MATCH` for a signature (rules R163 to R165, R176). -/
def matchOf (catalog : List Descriptor) (g : Signature) : MatchReg :=
  match identify catalog g with
  | some (k, _) => { done := true, found := true, idx := BitVec.ofNat 4 k }
  | none => { done := true, found := false, idx := 0 }

/-- What the matcher leaves in `DEF` for a signature (rule R176). -/
def defaultsOf (catalog : List Descriptor) (g : Signature) : FuseSet :=
  match identify catalog g with
  | some (_, e) => { low := e.defL, high := e.defH, ext := e.defE }
  | none => { low := 0, high := 0, ext := 0 }

/-- What reading the signature, identifying it and reading the current FuseSet leave: the common part of READALL and
RESTORE (rules R167, R168). -/
def afterSurvey (s : State) : State :=
  let t := afterSignature s
  afterCurrent { t with ident := matchOf (catalogOf t) t.sig, dflt := defaultsOf (catalogOf t) t.sig }

/-- What the clearing at the start of RESTORE leaves (rule R168). -/
def afterClear (s : State) : State :=
  { s with
    ident := { done := false, found := false, idx := 0 }
    dflt := { low := 0, high := 0, ext := 0 }
    ver := { low := 0, high := 0, ext := 0 }
    wrout := { wl := .notAttempted, wh := .notAttempted, we := .notAttempted, verify := .notRun } }

/-! ## A target that stores what is written (rule R174) -/

/-- The FuseSet a target stores that held `c` and completed the given writes, in order, storing the value of each. -/
def storedFuses (c : FuseSet) : List (Fuse × Byte) → FuseSet
  | [] => c
  | w :: ws => storedFuses (fuseSet c w.1 w.2) ws

/-- The target oracle of rule R174, a property of the transport's answers: a target that returned `c` when its FuseSet
was last read, and has completed the given writes since, stores the value of each write, so that the nine frames of a
FuseSet read that begin now return what it stores. The block cannot see whether a target is one (rules R64, R174;
log entry 23). -/
def storingTarget (c : FuseSet) (writes : List (Fuse × Byte)) (s : State) : Prop := fusesRead s = storedFuses c writes

/-! ## What a presenter reads, and the lines -/

/-- What a presenter shows as the device (rule R173): the catalog name of the matched entry, else the raw signature. -/
inductive PresentedDevice where
  | named (name : String)
  | raw (g : Signature)
  deriving DecidableEq, Repr

/-- The device a presenter reads from the registers and the catalog's configuration (rule R173). -/
def presentedDevice (s : State) : PresentedDevice :=
  if s.ident.found then
    match (catalogOf s)[s.ident.idx.toNat]? with
    | some e => .named e.name
    | none => .raw s.sig
  else .raw s.sig

/-- The levels a trace leaves in `OUT`: those of its last SET, whether or not the transport reported a failure (rule
R100); l before any SET. -/
def lastSet (l : Lines) (trace : List Event) : Lines :=
  trace.foldl (fun l e => match e with | .set m _ => m | .dir _ _ => l | .read _ => l | .delay _ _ => l) l

/-- The mask a trace leaves in `DIR` (rule R101). -/
def lastDir (m : Lines) (trace : List Event) : Lines :=
  trace.foldl (fun l e => match e with | .set _ _ => l | .dir m _ => m | .read _ => l | .delay _ _ => l) m

/-- The bit a trace leaves in `IN_LAST` (rule R102). -/
def lastRead (b : Bool) (trace : List Event) : Bool :=
  trace.foldl (fun b e => match e with | .set _ _ => b | .dir _ _ => b | .read r => r.getD b | .delay _ _ => b) b

/-- One of the five lines. -/
inductive Line where
  | din
  | iin
  | clk
  | rst
  | dout
  deriving DecidableEq, Repr

/-- The bit of a level or direction mask that belongs to a line (rule R70). -/
def lineOf (l : Lines) : Line → Bool
  | .din => l.din
  | .iin => l.iin
  | .clk => l.clk
  | .rst => l.rst
  | .dout => l.dout

/-- The levels the transport is known to drive on the lines that are outputs (rules R58, R100, R231): those of the last
SET if it succeeded and nothing failed since; unknown before any SET and after a failure. -/
def drivenLevels (trace : List Event) : Option Lines :=
  trace.foldl (fun l e => match e with
    | .set m ok => if ok then some m else none
    | .dir _ ok => if ok then l else none
    | .read r => if r.isSome then l else none
    | .delay _ _ => l) none

/-- What a trace says of the lines' directions. -/
inductive Directions where
  /-- no DIR has succeeded yet -/
  | undeclared
  /-- a call failed since the last DIR that succeeded (rule R231) -/
  | suspect
  /-- the mask of the last DIR, and nothing failed since (rule R58) -/
  | declared (mask : Lines)
  deriving DecidableEq, Repr

/-- What a failed call makes of the directions (rule R231). -/
def Directions.suspected : Directions → Directions
  | .undeclared => .undeclared
  | .suspect => .suspect
  | .declared _ => .suspect

/-- What a trace says of the lines' directions (rules R21, R58, R231). -/
def directions (trace : List Event) : Directions :=
  trace.foldl (fun d e => match e with
    | .set _ ok => if ok then d else d.suspected
    | .dir m ok => if ok then .declared m else d.suspected
    | .read r => if r.isSome then d else d.suspected
    | .delay _ _ => d) .undeclared

/-- The level the block drives on a physical line, where it is known (log entry 12). A line that is an input carries no
level of the block's: `OUT[4]` is not driven while `DIR[4] = 0` (rule R21). Before the first SET and the first DIR, and
after a failure until the next SET, no line is known (rules R100, R220, R231). A SET after a failure, such as the
abort's, is known on the four lines that are outputs in both masks of rule R21, and not on data-out, whose direction is
suspect until a DIR succeeds (rules R148, R231; DEDUCED, log entry 12). -/
def lineLevel (trace : List Event) (x : Line) : Option Bool :=
  match drivenLevels trace, directions trace with
  | some l, .declared m => if lineOf m x then some (lineOf l x) else none
  | some l, .suspect => if x = .dout then none else some (lineOf l x)
  | some _, .undeclared => none
  | none, _ => none

/-! ## The settle delays -/

/-- How far a trace has brought the data-out line (rules R146, R224). -/
inductive Settling where
  /-- no session, or the data-out line is an output -/
  | closed
  /-- the data-out line became an input, and its settle delay is not over -/
  | released
  /-- frames may be sent -/
  | settled
  deriving DecidableEq, Repr

/-- One event's effect: `DIR(DOUT_IN)` releases the line, a DELAY of at least the given time settles it, and any other
`DIR` closes it. -/
def settleBy (wanted : Nat) (x : Settling) (e : Event) : Settling :=
  match e with
  | .set _ _ => x
  | .dir m ok => if m = doutIn ∧ ok = true then .released else .closed
  | .read _ => x
  | .delay _ lasted => if x = .released ∧ wanted ≤ lasted then .settled else x

/-- How far a trace has brought the data-out line. -/
def settling (wanted : Nat) (trace : List Event) : Settling := trace.foldl (settleBy wanted) .closed

/-- An event only a frame or a poll issues: a READ, or a SET with the clock high. -/
def frameEvent : Event → Bool
  | .set l _ => l.clk
  | .dir _ _ => false
  | .read _ => true
  | .delay _ _ => false

/-- Every event of a frame or a poll comes when the data-out line has settled (rules R146, R224). -/
def settledTrace (wanted : Nat) (trace : List Event) : Prop :=
  ∀ before e after, trace = before ++ e :: after → frameEvent e = true → settling wanted before = .settled

/-! ## What holds of every state the machine reaches -/

/-- A block at rest: Idle with the exit levels, or Ready with every line low and data-out the input (rules R148, R209,
R142, R108). -/
def atRest (p : Phase) (out dir : Lines) : Bool :=
  (p == .idle && out == exitLevels) || (p == .ready && out == hvApplied && dir == doutIn)

/-- The position of ENTER or EXIT, or of an abort, brings the block to rest from the given phase and lines, whatever
fails on the way. No SET on it raises the clock, and no direction changes in Ready. -/
def sessionFlow (p : Phase) (out dir : Lines) : List Stmt → Bool
  | [.finish .ok] => atRest p out dir
  | [.abortEnd] => out == exitLevels
  | [.abortSet, .abortEnd] => true
  | .set .abort l :: rest => !l.clk && sessionFlow p l dir rest
  | .set .exitFailed l :: rest => l == exitLevels && sessionFlow p l dir rest
  | .dir .abort m :: rest => p != .ready && (m == allOut || m == doutIn) && sessionFlow p out m rest
  | .dir .unavailable m :: rest =>
    p != .ready && (m == allOut || m == doutIn) && out == exitLevels && sessionFlow p out m rest
  | .delay _ :: rest => sessionFlow p out dir rest
  | .phase q :: rest => sessionFlow q out dir rest
  | _ => false

/-- A statement returns from a write. -/
def isWrote : Stmt → Bool
  | .wrote _ _ => true
  | _ => false

/-- The position of a command that runs in Ready ends with every line low: `d` says that `din` and `iin` are low, `c`
that `clk` is. -/
def readyFlow (d c : Bool) : List Stmt → Bool
  | [] => false
  | .finish _ :: rest => d && c && rest == []
  | .driveZero :: rest => readyFlow true true rest
  | .driveBit _ :: rest => readyFlow false true rest
  | .clock b :: rest => readyFlow d (!b) rest
  | .sampleBit _ :: rest => readyFlow d c rest
  | .cycleNo _ :: rest => readyFlow d c rest
  | .frameEnd :: rest => readyFlow d c rest
  | .transfer _ _ :: rest => readyFlow true true rest
  | .send _ :: rest => readyFlow true true rest
  | .readFuse _ :: rest => readyFlow true true rest
  | .readSig _ :: rest => readyFlow true true rest
  | .writeFuse _ _ :: rest => readyFlow true true rest
  | .writeDefault _ :: rest => readyFlow true true rest
  | .writeExtended :: rest => d && c && readyFlow true true rest
  | .pollStart :: rest => readyFlow d c rest
  | .poll :: rest => d && c && rest.any isWrote && readyFlow true true rest
  | .wrote _ _ :: rest => d && c && readyFlow true true rest
  | .delay _ :: rest => readyFlow d c rest
  | .storeCur _ :: rest => readyFlow d c rest
  | .storeVer _ :: rest => readyFlow d c rest
  | .storeSig _ :: rest => readyFlow d c rest
  | .applyIdentify :: rest => readyFlow d c rest
  | .identifyMatch :: rest => readyFlow d c rest
  | .identifyDef _ :: rest => readyFlow d c rest
  | .clearMatch :: rest => readyFlow d c rest
  | .clearDef _ :: rest => readyFlow d c rest
  | .clearVer _ :: rest => readyFlow d c rest
  | .clearWrout :: rest => readyFlow d c rest
  | .unlessFoundEnd :: rest => d && c && readyFlow d c rest
  | .clearTimeout :: rest => readyFlow d c rest
  | .verify :: rest => readyFlow d c rest
  | .set _ _ :: _ => false
  | .dir _ _ :: _ => false
  | .phase _ :: _ => false
  | .abortSet :: _ => false
  | .abortEnd :: _ => false

/-- The position of IDENT: the matcher's writes and the command's end, without a transport call. -/
def matcherFlow : List Stmt → Bool
  | .finish _ :: rest => rest == []
  | .applyIdentify :: rest => matcherFlow rest
  | .identifyMatch :: rest => matcherFlow rest
  | .identifyDef _ :: rest => matcherFlow rest
  | _ => false

/-- A command runs in Ready: the phase, the directions and the levels of `rst` and `dout` are those of Ready, and its
position ends with every line low. -/
def runsInReady (s : State) : Prop :=
  s.phase = .ready ∧ s.dir = doutIn ∧ s.out.rst = false ∧ s.out.dout = false ∧
  readyFlow (!s.out.din && !s.out.iin) (!s.out.clk) s.pos = true

/-- What holds of every state the machine reaches: `DIR` holds one of its two values (rule R21); a block that is not
busy is at rest, in Idle or Ready, with no position (rules R24, R27, R148); and a busy block is on a way that brings it
to rest, whatever the transport answers. -/
def BlockInv (s : State) : Prop :=
  (s.dir = allOut ∨ s.dir = doutIn) ∧
  if s.busy then
    sessionFlow s.phase s.out s.dir s.pos = true ∨ runsInReady s ∨
    (atRest s.phase s.out s.dir = true ∧ matcherFlow s.pos = true)
  else s.pos = [] ∧ atRest s.phase s.out s.dir = true

/-- The position makes the phase Ready only where the data-out line has settled, from the given settling on. -/
def releaseFlow (wanted : Nat) (x : Settling) : List Stmt → Bool
  | [] => true
  | .dir _ m :: rest => releaseFlow wanted (if m = doutIn then .released else .closed) rest
  | .delay n :: rest => releaseFlow wanted (if x = .released ∧ wanted ≤ n then .settled else x) rest
  | .phase .ready :: rest => x == .settled && releaseFlow wanted x rest
  | _ :: rest => releaseFlow wanted x rest

/-- `BlockInv`, and what it takes for no frame to come before the data-out line has settled (rules R146, R224). -/
def SettledInv (s : State) : Prop :=
  BlockInv s ∧
  settledTrace s.setup.params.tSdoReleaseUs s.trace ∧
  (s.phase = .ready → settling s.setup.params.tSdoReleaseUs s.trace = .settled) ∧
  releaseFlow s.setup.params.tSdoReleaseUs (settling s.setup.params.tSdoReleaseUs s.trace) s.pos = true

end Sys2Proof.Machine
end

