-- ==== Sys2Proof/Certificates/Slice0/Obligations.lean ====
section
/-! DEFINITION. The statements for the provers. Where a statement counts the sequencer's steps (a bound on `grant`, or the
step at which something holds), it counts them as the model cuts a command into steps (log entry 1, DESIGN CHOICE): one
transport event, or one internal step. -/

open Sys2Proof Sys2Proof.Machine

/-! ## Encoding -/

/-- Words written out from the spec's tables decode to the instructions they stand for (rules R79 to R84): at least one
of every opcode, and words rule R82 makes illegal. -/
def Obligations.SpecWordsDecode : Prop :=
  decode 0x100000#24 = .ok .enter ∧ decode 0x200000#24 = .ok .exit ∧ decode 0x30044C#24 = .ok (.frame 0x04 0x4C) ∧
  decode 0x440000#24 = .ok .rdfuseH ∧ decode 0x540000#24 = .ok .rdsig1 ∧ decode 0x606200#24 = .ok (.wrfuseL 0x62) ∧
  decode 0x700000#24 = .ok .ident ∧ decode 0x800000#24 = .ok .readall ∧ decode 0x900000#24 = .ok .restore ∧
  decode 0x000000#24 = .error .opcode ∧ decode 0xF00000#24 = .error .opcode ∧ decode 0x110000#24 = .error .zField ∧
  decode 0x5C0000#24 = .error .selReserved ∧ decode 0x140000#24 = .error .selUnused ∧
  decode 0x400100#24 = .error .aUnused ∧ decode 0x606201#24 = .error .bUnused ∧
  decodeFrame 0x044C#16 = .ok .enterFuseRead ∧ decodeFrame 0x622C#16 = .ok (.loadData 0x62) ∧
  decodeFrame 0x007A#16 = .ok (.fuseSelect .high) ∧ decodeFrame 0x007C#16 = .ok (.writeStrobeB .high)

/-- The word of every command, from the fields of rule R79 and the opcodes of rule R81 ("Word values" of
`30_encoding.md`, which the spec derives from those two). -/
def Obligations.CommandWordValues : Prop :=
  commandOf .enter = some 0x100000#24 ∧
  commandOf .exit = some 0x200000#24 ∧
  (∀ d i : Byte, commandOf (.frame d i) = some (0x300000#24 ||| (d.zeroExtend 24 <<< 8) ||| i.zeroExtend 24)) ∧
  commandOf .rdfuseL = some 0x400000#24 ∧ commandOf .rdfuseH = some 0x440000#24 ∧
  commandOf .rdfuseE = some 0x480000#24 ∧
  commandOf .rdsig0 = some 0x500000#24 ∧ commandOf .rdsig1 = some 0x540000#24 ∧ commandOf .rdsig2 = some 0x580000#24 ∧
  (∀ v : Byte, commandOf (.wrfuseL v) = some (0x600000#24 ||| (v.zeroExtend 24 <<< 8)) ∧
    commandOf (.wrfuseH v) = some (0x640000#24 ||| (v.zeroExtend 24 <<< 8)) ∧
    commandOf (.wrfuseE v) = some (0x680000#24 ||| (v.zeroExtend 24 <<< 8))) ∧
  commandOf (.wrfuseL 0x62) = some 0x606200#24 ∧
  commandOf .ident = some 0x700000#24 ∧
  commandOf .readall = some 0x800000#24 ∧
  commandOf .restore = some 0x900000#24

/-- A word decodes to an instruction exactly where it is the word the encoder writes for it: decode of encode is the
instruction, with every operand at every value, and no other word decodes to it (rules R79 to R82). -/
def Obligations.DecodeInvertsEncode : Prop :=
  ∀ (i : Instr) (w : CmdWord), decode w = .ok i ↔ commandOf i = some w

/-- A word is refused exactly where one of rule R82's conditions holds. -/
def Obligations.IllegalWordsRefused : Prop :=
  ∀ w : CmdWord,
    let op := w.extractLsb' 20 4
    let sel := w.extractLsb' 18 2
    let z := w.extractLsb' 16 2
    let a := w.extractLsb' 8 8
    let b := w.extractLsb' 0 8
    (∃ r, decode w = .error r) ↔
      op = 0 ∨ 0xA ≤ op.toNat ∨ z ≠ 0 ∨
      ((op = 4 ∨ op = 5 ∨ op = 6) ∧ sel = 3) ∨
      (¬(op = 4 ∨ op = 5 ∨ op = 6) ∧ sel ≠ 0) ∨
      (¬(op = 3 ∨ op = 6) ∧ a ≠ 0) ∨
      (op ≠ 3 ∧ b ≠ 0)

/-- Every 24-bit word fits exactly one row of the opcode table's host commands, or fits none and is refused; where it
decodes, the row is that of its instruction; and no word fits two rows (rules R81, R82; the spec derives it from them
in `30_encoding.md`). -/
def Obligations.TableRowsPartitionWords : Prop :=
  ∀ w : CmdWord,
    (∀ i, decode w = .ok i → hostRows.filter (·.fits w.toNat) = [opcodeRow i]) ∧
    (∀ r, decode w = .error r → hostRows.filter (·.fits w.toNat) = [])

/-- A frame constant's key decodes to a constant with that key (rules R74, R75). Where rows of the table share a key
(rule R78), which of their names the key decodes to is the model's choice (log entry 9); the frame it stands for is the
same. -/
def Obligations.FrameKeysDecodeBack : Prop :=
  (∀ (i : Instr) (key : FrameKey), encode i = .frame key →
    ∃ f, decodeFrame key = .ok f ∧ frameCode f = .frame key ∧ encode (frameInstr f) = encode i) ∧
  (∀ (f : FrameName) (key : FrameKey), decodeFrame key = .ok f → frameCode f = .frame key)

/-- The frames the block sends (rule R75), with the pairs of rules R76 and R77. -/
def Obligations.FrameConstantPairs : Prop :=
  frameBytes .enterFuseRead = (0x04, 0x4C) ∧ frameBytes .enterSigRead = (0x08, 0x4C) ∧
  frameBytes .enterFuseWrite = (0x40, 0x4C) ∧ (∀ v, frameBytes (.loadData v) = (v, 0x2C)) ∧
  frameBytes (.sigSelect 0) = (0x00, 0x0C) ∧ frameBytes (.sigSelect 1) = (0x01, 0x0C) ∧
  frameBytes (.sigSelect 2) = (0x02, 0x0C) ∧
  frameBytes .sigShiftA = (0x00, 0x68) ∧ frameBytes .sigShiftB = (0x00, 0x6C) ∧
  frameBytes (.fuseSelect .low) = (0x00, 0x68) ∧ frameBytes (.fuseShift .low) = (0x00, 0x6C) ∧
  frameBytes (.fuseSelect .high) = (0x00, 0x7A) ∧ frameBytes (.fuseShift .high) = (0x00, 0x7E) ∧
  frameBytes (.fuseSelect .ext) = (0x00, 0x6A) ∧ frameBytes (.fuseShift .ext) = (0x00, 0x6E) ∧
  frameBytes (.writeStrobeA .low) = (0x00, 0x64) ∧ frameBytes (.writeStrobeB .low) = (0x00, 0x6C) ∧
  frameBytes (.writeStrobeA .high) = (0x00, 0x74) ∧ frameBytes (.writeStrobeB .high) = (0x00, 0x7C) ∧
  frameBytes (.writeStrobeA .ext) = (0x00, 0x66) ∧ frameBytes (.writeStrobeB .ext) = (0x00, 0x6E) ∧
  frameBytes .writeEnd = (0x00, 0x4C)

/-! ## Steps and the handshake -/

/-- A step runs the decoded instruction: where the block is not busy and the host presents a word that decodes, the
step is the instruction's meaning, at the state in which the host's turn was taken and the word accepted (rules R53,
R200). -/
def Obligations.AcceptedWordRuns : Prop :=
  ∀ (s : State) (w : CmdWord) (n : Nat) (rest : List Turn) (i : Instr),
    s.busy = false → s.turns = { act := .cmd w, grant := n } :: rest → decode w = .ok i →
    step s = exec i { s with cmdw := w, err := .ok, busy := true, turns := rest, grant := n }

/-- A step runs the frame constant that is the sequencer's next statement, and running it as an instruction is the
sequencer's own way. That a frame constant is an instruction, whose meaning is the step's, is the model's choice (log
entry 11). -/
def Obligations.NextFrameRuns : Prop :=
  ∀ (s : State) (n : Nat) (rest : List Turn) (f : FrameName) (p : List Stmt),
    s.turns = { act := .wait, grant := n } :: rest → s.pos = .send f :: p →
    step s = exec (frameInstr f) { s with pos := p, turns := rest, grant := n } ∧
    step s = .next (advance n { s with turns := rest, grant := n })

/-- A host that waits lets the sequencer make the steps its turn grants; a host without further turns lets it make one
(the host's side is the model's, log entry 2). -/
def Obligations.WaitingHostLetsBlockRun : Prop :=
  (∀ (s : State) (n : Nat) (rest : List Turn), s.turns = { act := .wait, grant := n } :: rest →
    step s = .next (advance n { s with turns := rest, grant := n })) ∧
  (∀ s : State, s.turns = [] → step s = .next (advance 1 { s with grant := 1 }))

/-- A word presented while the block is busy is dropped: the step is the one a waiting host's turn makes, so no
register changes by it and nothing is queued (rules R53, R202). -/
def Obligations.BusyBlockDropsWord : Prop :=
  ∀ (s : State) (w : CmdWord) (n : Nat) (rest : List Turn),
    s.busy = true → s.turns = { act := .cmd w, grant := n } :: rest →
    step s = .next (advance n { s with turns := rest, grant := n }) ∧
    (n = 0 → step s = .next { s with turns := rest, grant := 0 })

/-- An illegal word completes at once with ERR = 5 and no event; no other register changes but CMDW, which holds the
accepted word (rules R196, R200). -/
def Obligations.IllegalWordCompletesAtOnce : Prop :=
  ∀ (s : State) (w : CmdWord) (n : Nat) (rest : List Turn) (r : Reject),
    s.busy = false → s.turns = { act := .cmd w, grant := n } :: rest → decode w = .error r →
    step s = .next { s with cmdw := w, err := .illegalCmd, busy := false, pos := [], turns := rest, grant := n }

/-- A legal command outside the phases of rule R197's table completes at once with ERR = 6 and no event; no other
register changes but CMDW. -/
def Obligations.WrongPhaseCompletesAtOnce : Prop :=
  ∀ (s : State) (w : CmdWord) (n : Nat) (rest : List Turn) (i : Instr),
    s.busy = false → s.turns = { act := .cmd w, grant := n } :: rest → decode w = .ok i →
    s.phase ∉ allowedPhases i →
    step s = .next { s with cmdw := w, err := .wrongPhase, busy := false, pos := [], turns := rest, grant := n }

/-- Block reset sets every register the spec gives a reset value to that value, abandons a command in progress, and
issues no event, whatever the state (rules R40, R220, R221). -/
def Obligations.BlockResetSetsRegisters : Prop :=
  ∀ (s : State) (n : Nat) (rest : List Turn), s.turns = { act := .reset, grant := n } :: rest →
    ∃ t, step s = .next t ∧
      t.phase = .idle ∧ t.busy = false ∧ t.err = .ok ∧ linesMask t.out = 0b01000#5 ∧ linesMask t.dir = 0b11111#5 ∧
      t.inLast = false ∧ t.result = 0 ∧ t.sig = { b0 := 0, b1 := 0, b2 := 0 } ∧
      t.cur = { low := 0, high := 0, ext := 0 } ∧ t.dflt = { low := 0, high := 0, ext := 0 } ∧
      t.ver = { low := 0, high := 0, ext := 0 } ∧ matchByte t.ident = 0 ∧ wroutByte t.wrout = 0 ∧
      t.pos = [] ∧
      t.trace = s.trace ∧ t.answers = s.answers ∧ t.draws = s.draws ∧ t.setup = s.setup ∧ t.seen = s.seen ∧
      t.turns = rest

/-- The values right after reset, of every register for which rule R40 gives one. -/
def Obligations.ResetRegisterValues : Prop :=
  linesMask State.reset.out = 0b01000#5 ∧ linesMask State.reset.dir = 0b11111#5 ∧ State.reset.inLast = false ∧
  phaseCode State.reset.phase = 0 ∧ State.reset.busy = false ∧ errCode State.reset.err = 0 ∧
  State.reset.result = 0 ∧ (∀ j, sigGet State.reset.sig j = 0) ∧ (∀ f, fuseGet State.reset.cur f = 0) ∧
  (∀ f, fuseGet State.reset.dflt f = 0) ∧ (∀ f, fuseGet State.reset.ver f = 0) ∧
  State.reset.ident = { done := false, found := false, idx := 0 } ∧ matchByte State.reset.ident = 0 ∧
  State.reset.wrout = { wl := .notAttempted, wh := .notAttempted, we := .notAttempted, verify := .notRun } ∧
  wroutByte State.reset.wrout = 0 ∧ State.reset.trace = []

/-- The codes of the phases, of the outcomes, and of the write and verify outcomes (rules R23, R35, R190). -/
def Obligations.StatusCodes : Prop :=
  phaseCode .idle = 0 ∧ phaseCode .poweredReset = 1 ∧ phaseCode .highVoltageApplied = 2 ∧
  phaseCode .stableEnable = 3 ∧ phaseCode .ready = 4 ∧ (∀ p, (phaseCode p).toNat ≤ 4) ∧
  errCode .ok = 0 ∧ errCode .transportUnavailable = 1 ∧ errCode .transportIoFailure = 2 ∧
  errCode .writeTimeout = 3 ∧ errCode .unknownDevice = 4 ∧ errCode .illegalCmd = 5 ∧ errCode .wrongPhase = 6 ∧
  (∀ e, (errCode e).toNat ≤ 6) ∧
  writeCode .notAttempted = 0 ∧ writeCode .done = 1 ∧ writeCode .timeout = 2 ∧ writeCode .skipped = 3 ∧
  verifyCode .notRun = 0 ∧ verifyCode .matched = 1 ∧ verifyCode .mismatch = 2 ∧ (∀ v, verifyCode v ≠ 3)

/-- The host register file, bit by bit, with the codes of `WROUT` (rules R34, R35, R36, R52). -/
def Obligations.HostRegisterMap : Prop :=
  ∀ s : State,
    (hostRead s 0x00).extractLsb' 0 3 = phaseCode s.phase ∧ (hostRead s 0x00).getLsbD 3 = s.busy ∧
    (hostRead s 0x00).extractLsb' 4 4 = errCode s.err ∧
    (hostRead s 0x01).extractLsb' 0 4 = s.ident.idx ∧ (hostRead s 0x01).extractLsb' 4 2 = 0 ∧
    (hostRead s 0x01).getLsbD 6 = s.ident.found ∧ (hostRead s 0x01).getLsbD 7 = s.ident.done ∧
    hostRead s 0x02 = s.result ∧
    hostRead s 0x03 = s.sig.b0 ∧ hostRead s 0x04 = s.sig.b1 ∧ hostRead s 0x05 = s.sig.b2 ∧
    hostRead s 0x06 = s.cur.low ∧ hostRead s 0x07 = s.cur.high ∧ hostRead s 0x08 = s.cur.ext ∧
    hostRead s 0x09 = s.dflt.low ∧ hostRead s 0x0A = s.dflt.high ∧ hostRead s 0x0B = s.dflt.ext ∧
    hostRead s 0x0C = s.ver.low ∧ hostRead s 0x0D = s.ver.high ∧ hostRead s 0x0E = s.ver.ext ∧
    (hostRead s 0x0F).extractLsb' 0 2 = writeCode s.wrout.wl ∧
    (hostRead s 0x0F).extractLsb' 2 2 = writeCode s.wrout.wh ∧
    (hostRead s 0x0F).extractLsb' 4 2 = writeCode s.wrout.we ∧
    (hostRead s 0x0F).extractLsb' 6 2 = verifyCode s.wrout.verify ∧
    (∀ f : Fuse, let code := (hostRead s 0x0F).extractLsb' (match f with | .low => 0 | .high => 2 | .ext => 4) 2
      (code = 0 ↔ wroutGet s.wrout f = .notAttempted) ∧ (code = 1 ↔ wroutGet s.wrout f = .done) ∧
      (code = 2 ↔ wroutGet s.wrout f = .timeout) ∧ (code = 3 ↔ wroutGet s.wrout f = .skipped)) ∧
    ((hostRead s 0x0F).extractLsb' 6 2 = 0 ↔ s.wrout.verify = .notRun) ∧
    ((hostRead s 0x0F).extractLsb' 6 2 = 1 ↔ s.wrout.verify = .matched) ∧
    ((hostRead s 0x0F).extractLsb' 6 2 = 2 ↔ s.wrout.verify = .mismatch) ∧
    (hostRead s 0x10).getLsbD 0 = s.out.din ∧ (hostRead s 0x10).getLsbD 1 = s.out.iin ∧
    (hostRead s 0x10).getLsbD 2 = s.out.clk ∧ (hostRead s 0x10).getLsbD 3 = s.out.rst ∧
    (hostRead s 0x10).getLsbD 4 = s.out.dout ∧ (hostRead s 0x10).extractLsb' 5 3 = 0 ∧
    (hostRead s 0x11).getLsbD 0 = s.dir.din ∧ (hostRead s 0x11).getLsbD 1 = s.dir.iin ∧
    (hostRead s 0x11).getLsbD 2 = s.dir.clk ∧ (hostRead s 0x11).getLsbD 3 = s.dir.rst ∧
    (hostRead s 0x11).getLsbD 4 = s.dir.dout ∧ (hostRead s 0x11).extractLsb' 5 2 = 0 ∧
    (hostRead s 0x11).getLsbD 7 = s.inLast ∧
    (∀ a : RegAddr, 0x12 ≤ a.toNat → hostRead s a = 0)

/-- A host read gives the register's value to the host and changes no register; the sequencer makes the steps the turn
grants, busy or not; and two reads of one address with no step of the block between them give the same value
(rules R36, R52). -/
def Obligations.HostReadChangesNothing : Prop :=
  ∀ (s : State) (a : RegAddr) (n : Nat) (rest : List Turn), s.turns = { act := .read a, grant := n } :: rest →
    step s = .next (advance n { s with turns := rest, grant := n, seen := s.seen ++ [(a, hostRead s a)] }) ∧
    (n = 0 → ∃ t, step s = .next t ∧ ∀ b, hostRead t b = hostRead s b)

/-- WAIT repeats the host's read of STATUS until BUSY = 0 (rule R85). That it is one act of the host, which stays the
host's next turn with the same grant while the block is busy, is the model's choice (log entry 21). -/
def Obligations.WaitRepeatsUntilNotBusy : Prop :=
  ∀ (s : State) (n : Nat) (rest : List Turn), s.turns = { act := .waitDone, grant := n } :: rest →
    step s = .next (advance n { s with
      turns := if s.busy then s.turns else rest, grant := n, seen := s.seen ++ [(0x00, hostRead s 0x00)] })

/-- What the host reads does not depend on the codec's registers, CMDW, the sequencer's position and locals, POLL_N, or
anything that surrounds the block: the parameters, the transport's answers, the host's turns, the trace and what the
host read before (rules R26, R27, R28, R36, R40). -/
def Obligations.InternalStateNotReadable : Prop :=
  ∀ (s : State) (d i r : Byte) (k : Fin 11) (w : CmdWord) (p : List Stmt) (b : Bool) (n : Nat) (a : RegAddr)
    (x : Setup) (ans : List Answer) (m : Nat) (ts : List Turn) (g : Nat) (tr : List Event)
    (sn : List (RegAddr × Byte)),
    hostRead { s with
      fcD := d, fcI := i, fcR := r, fcK := k, cmdw := w, pos := p, timedOut := b, pollN := n, setup := x
      answers := ans, draws := m, turns := ts, grant := g, trace := tr, seen := sn } a = hostRead s a

/-! ## Frames -/

/-- FRAME completes: in Ready, where none of its forty transport calls fails, it leaves what a frame leaves, with
`ERR = 0` and `BUSY = 0`, and everything else as it was (rules R105, R112). -/
def Obligations.FrameCommandCompletes : Prop :=
  ∀ (d i : Byte) (s : State), s.phase = .ready → noFailure 40 s → 45 ≤ s.grant →
    exec (.frame d i) s = .next { drawn 40 s with
      out := { s.out with din := false, iin := false, clk := false }
      inLast := sampleAt s 0 7
      fcD := d, fcI := i, fcR := byteAt s 0, fcK := 10
      result := byteAt s 0
      timedOut := false
      trace := s.trace ++ frameEvents s.out d i (sampleAt s 0)
      err := .ok, busy := false, pos := [] }

/-- The byte a frame returns is its eight samples, the first one in bit 7, whatever the data and instruction bytes
(rule R105; `40_frame_codec.md` says so of the returned byte and derives it from that rule). -/
def Obligations.FrameByteIsItsSamples : Prop :=
  ∀ (d i d' i' : Byte) (s : State), s.phase = .ready → noFailure 40 s → 45 ≤ s.grant →
    ∃ t t', exec (.frame d i) s = .next t ∧ exec (.frame d' i') s = .next t' ∧ t.result = t'.result ∧
      ∀ m, m < 8 → t.result.getLsbD (7 - m) = (answerAt s (3 + 4 * m)).level

/-- A frame that completes issues exactly forty events, 32 SET and 8 READ, in one order; eleven SETs raise the clock and
eleven lower it, where the clock is low before the frame (rules R104, R105; the count and the order are what
`40_frame_codec.md` derives from them). -/
def Obligations.FrameEventOrder : Prop :=
  ∀ (d i : Byte) (s : State), s.phase = .ready → noFailure 40 s → 45 ≤ s.grant →
    ∃ t es, exec (.frame d i) s = .next t ∧ t.trace = s.trace ++ es ∧
      es.map callKind = List.replicate 3 .set ++ (List.replicate 8 [.read, .set, .set, .set]).flatten ++
        List.replicate 5 .set ∧
      es.length = 40 ∧ (es.map callKind).count .set = 32 ∧ (es.map callKind).count .read = 8 ∧
      (s.out.clk = false → clockRises false es = 11 ∧ clockFalls false es = 11)

/-- Through a frame, at every step of it, `rst`, the level of `dout` and `DIR` keep their values, and after a frame
that completes `din`, `iin` and `clk` are low (rules R104, R105; `40_frame_codec.md` derives both from them). -/
def Obligations.FrameKeepsResetAndDirections : Prop :=
  ∀ (d i : Byte) (s : State) (n : Nat), s.phase = .ready → noFailure 40 s →
    ∃ t, exec (.frame d i) { s with grant := n } = .next t ∧
      t.out.rst = s.out.rst ∧ t.out.dout = s.out.dout ∧ t.dir = s.dir ∧
      (45 ≤ n → t.busy = false ∧ t.out.din = false ∧ t.out.iin = false ∧ t.out.clk = false)

/-- The transport's failure at the k-th call of a frame ends it there: the events before it were issued, the failed one
and the one exit SET follow, `RESULT` is not written, and the block is Idle with ERR = 2 (rules R110, R192, R193). -/
def Obligations.FrameFailureAborts : Prop :=
  ∀ (d i : Byte) (s : State) (k : Nat), s.phase = .ready → k < 40 → noFailure k s → (answerAt s k).fails = true →
    45 ≤ s.grant →
    ∃ t, exec (.frame d i) s = .next t ∧
      t.trace = s.trace ++ (frameEvents s.out d i (sampleAt s 0)).take k ++
        ((frameEvents s.out d i (sampleAt s 0)).drop k).head?.toList.map failed ++
        [.set exitLevels (!(answerAt s (k + 1)).fails)] ∧
      t.phase = .idle ∧ t.err = .transportIoFailure ∧ t.busy = false ∧ t.pos = [] ∧
      t.out = exitLevels ∧ t.dir = s.dir ∧ t.result = s.result ∧
      t.sig = s.sig ∧ t.cur = s.cur ∧ t.dflt = s.dflt ∧ t.ver = s.ver ∧ t.ident = s.ident ∧ t.wrout = s.wrout

/-- Each of the twenty-two frame constants completes: `TransferFrame` with its two bytes, and the sequencer goes on
with the statements after it (rules R75, R105). The instructions are ENTER_FUSE_READ, ENTER_SIG_READ,
ENTER_FUSE_WRITE, LOAD_DATA(v), SIG_SELECT(0, 1, 2), SIG_SHIFT_A, SIG_SHIFT_B, FUSE_SELECT, FUSE_SHIFT,
WRITE_STROBE_A and WRITE_STROBE_B (L, H, E each), and WRITE_END. That such a frame runs as an instruction, in any phase,
and that the sequencer then goes on for the rest of the grant, is the model's choice (log entry 11). -/
def Obligations.FrameConstantsComplete : Prop :=
  ∀ (f : FrameName) (s : State), noFailure 40 s → frameSteps ≤ s.grant →
    exec (frameInstr f) s = .next (advance (s.grant - frameSteps)
      { drawn 40 s with
        out := { s.out with din := false, iin := false, clk := false }
        inLast := sampleAt s 0 7
        fcD := (frameBytes f).1, fcI := (frameBytes f).2, fcR := byteAt s 0, fcK := 10
        result := byteAt s 0
        trace := s.trace ++ frameEvents s.out (frameBytes f).1 (frameBytes f).2 (sampleAt s 0) })

/-! ## Mode entry and exit -/

/-- ENTER completes: from Idle, where none of its four calls that can fail does, it issues its seven events in order
and leaves the block in Ready (rules R141, R142). -/
def Obligations.EnterCompletes : Prop :=
  ∀ s : State, s.phase = .idle → (answerAt s 0).fails = false → (answerAt s 1).fails = false →
    (answerAt s 3).fails = false → (answerAt s 5).fails = false → 12 ≤ s.grant →
    let p := s.setup.params
    exec .enter s = .next { drawn 7 s with
      out := maskLines 0b00000
      dir := maskLines 0b01111
      phase := .ready
      timedOut := false
      trace := s.trace ++
        [.dir (maskLines 0b11111) true, .set (maskLines 0b01000) true,
         .delay p.tPwrSettleUs (p.tPwrSettleUs + (answerAt s 2).late), .set (maskLines 0b00000) true,
         .delay p.tHvSettleUs (p.tHvSettleUs + (answerAt s 4).late), .dir (maskLines 0b01111) true,
         .delay p.tSdoReleaseUs (p.tSdoReleaseUs + (answerAt s 6).late)]
      err := .ok, busy := false, pos := [] }

/-- ENTER passes through the phases in order, one transition each, and is busy until its end (rules R140, R142). The
steps at which it does, one for each statement, are the model's choice (log entry 1). -/
def Obligations.EnterPassesPhasesInOrder : Prop :=
  ∀ (s : State) (n : Nat), s.phase = .idle → s.busy = true → (answerAt s 0).fails = false →
    (answerAt s 1).fails = false → (answerAt s 3).fails = false → (answerAt s 5).fails = false →
    ∃ t, exec .enter { s with grant := n } = .next t ∧
      t.phase = (if n < 3 then .idle else if n < 6 then .poweredReset else if n < 8 then .highVoltageApplied
        else if n < 11 then .stableEnable else .ready) ∧
      (t.busy = true ↔ n < 12)

/-- Where the first call of ENTER fails the command ends at once with ERR = 1 and no further event; `DIR` holds
ALL_OUT, and the level of no line is known (rule R191). -/
def Obligations.EnterUnavailable : Prop :=
  ∀ s : State, s.phase = .idle → (answerAt s 0).fails = true → 1 ≤ s.grant →
    exec .enter s = .next { drawn 1 s with
      dir := maskLines 0b11111, phase := .idle, timedOut := false
      trace := s.trace ++ [.dir (maskLines 0b11111) false]
      err := .transportUnavailable, busy := false, pos := [] } ∧
    ∀ x, lineLevel (s.trace ++ [.dir (maskLines 0b11111) false]) x = none

/-- EXIT completes, in Idle and in Ready: one event, the exit levels, and Idle; `DIR` is unchanged. The block drives the
exit levels: `rst` high and `din`, `iin` and `clk` low, and data-out low where it is an output and not driven where it is
an input; where no DIR has succeeded yet no line's level is known, and where a call failed since the last DIR data-out's
is not (rules R21, R143, R148; what is known of the lines is log entry 12). -/
def Obligations.ExitCompletes : Prop :=
  ∀ s : State, s.phase = .idle ∨ s.phase = .ready → (answerAt s 0).fails = false → 3 ≤ s.grant →
    exec .exit s = .next { drawn 1 s with
      out := maskLines 0b01000, phase := .idle, timedOut := false
      trace := s.trace ++ [.set (maskLines 0b01000) true]
      err := .ok, busy := false, pos := [] } ∧
    let tr := s.trace ++ [.set (maskLines 0b01000) true]
    (directions s.trace = .undeclared → ∀ x, lineLevel tr x = none) ∧
    (directions s.trace = .suspect ∨ directions s.trace = .declared (maskLines 0b01111) ∨
        directions s.trace = .declared (maskLines 0b11111) →
      lineLevel tr .rst = some true ∧ lineLevel tr .din = some false ∧ lineLevel tr .iin = some false ∧
      lineLevel tr .clk = some false ∧
      lineLevel tr .dout = if directions s.trace = .declared (maskLines 0b11111) then some false else none)

/-- Where the SET of EXIT fails the block is Idle all the same, with ERR = 2, and no second SET is tried (rules R143,
R193). -/
def Obligations.ExitFailureIsNotRetried : Prop :=
  ∀ s : State, s.phase = .idle ∨ s.phase = .ready → (answerAt s 0).fails = true → 2 ≤ s.grant →
    exec .exit s = .next { drawn 1 s with
      out := maskLines 0b01000, phase := .idle, timedOut := false
      trace := s.trace ++ [.set (maskLines 0b01000) false]
      err := .transportIoFailure, busy := false, pos := [] }

/-- The abort: where the next statement's transport call fails, the failed event and one exit SET are issued, whether
or not that fails too, and the block is Idle with ERR = 2 and not busy; the position is discarded, the statement's own
assignment is not made, and nothing else changes. Where the exit SET succeeds and a DIR had succeeded before, the block
drives `rst` high and `din`, `iin` and `clk` low, and data-out's level is not known; where it fails no line's is (rules
R148, R192, R193, R231; what is known of the lines is log entry 12). -/
def Obligations.AbortIsPrecise : Prop :=
  ∀ (s : State) (st : Stmt) (p : List Stmt) (e : Event) (n : Nat) (rest : List Turn),
    s.turns = { act := .wait, grant := n } :: rest → 3 ≤ n → s.pos = st :: p → abortingCall s st = some e →
    (answerAt s 0).fails = true →
    step s = .next { drawn 2 s with
      out := maskLines 0b01000
      dir := lastDir s.dir [e]
      phase := .idle
      trace := s.trace ++ [e, .set (maskLines 0b01000) (!(answerAt s 1).fails)]
      err := .transportIoFailure, busy := false, pos := []
      turns := rest, grant := n } ∧
    let tr := s.trace ++ [e, .set (maskLines 0b01000) (!(answerAt s 1).fails)]
    ((answerAt s 1).fails = false → directions s.trace ≠ .undeclared →
      lineLevel tr .rst = some true ∧ lineLevel tr .din = some false ∧ lineLevel tr .iin = some false ∧
      lineLevel tr .clk = some false ∧ lineLevel tr .dout = none) ∧
    ((answerAt s 1).fails = true → ∀ x, lineLevel tr x = none)

/-! ## Transactions -/

/-- RDFUSE L, H and E complete: in Ready, where none of the 120 calls fails, three frames, and the third one's byte in
`CUR[s]` and `RESULT` (rules R76, R120, R123). -/
def Obligations.RdfuseCompletes : Prop :=
  ∀ (f : Fuse) (s : State), s.phase = .ready → noFailure 120 s → 135 ≤ s.grant →
    exec (rdfuseInstr f) s = .next { afterFrames (readFuseFrames f) s with
      cur := fuseSet s.cur f (byteAt s 80), result := byteAt s 80, timedOut := false
      err := .ok, busy := false, pos := [] }

/-- RDSIG 0, 1 and 2 complete: in Ready, where none of the 160 calls fails, four frames, and the fourth one's byte in
`SIG[j]` and `RESULT` (rules R121, R124). -/
def Obligations.RdsigCompletes : Prop :=
  ∀ (j : SigIndex) (s : State), s.phase = .ready → noFailure 160 s → 179 ≤ s.grant →
    exec (rdsigInstr j) s = .next { afterFrames (readSigFrames j) s with
      sig := sigSet s.sig j (byteAt s 120), result := byteAt s 120, timedOut := false
      err := .ok, busy := false, pos := [] }

/-- WRFUSE L, H and E complete, whichever way the two polls end: in Ready, the four frames of the write, the first
poll, and unless it timed out the closing frame and the second poll; the byte's `WROUT` field is DONE or TIMEOUT, and
`ERR` is 0 or 3 accordingly; `CUR` and `VER` are unchanged (rules R77, R125, R126, R128, R129). -/
def Obligations.WrfuseCompletes : Prop :=
  ∀ (f : Fuse) (v : Byte) (w : WriteRun) (s : State),
    let u := { s with timedOut := false }
    s.phase = .ready → writeRuns f v w u → writeSteps f v w u + 1 ≤ s.grant →
    ∃ t, exec (wrfuseInstr f v) s = .next t ∧
      t = { afterWrite f v w u with
        err := if writeOutcome w = .timeout then .writeTimeout else .ok, busy := false, pos := [] } ∧
      t.wrout = wroutSet s.wrout f (writeOutcome w) ∧ t.out = quiet s.out ∧ t.dir = s.dir ∧ t.phase = .ready ∧
      t.cur = s.cur ∧ t.ver = s.ver ∧ t.sig = s.sig ∧ t.dflt = s.dflt ∧ t.ident = s.ident

/-- The events of a read of a fuse byte, of a signature byte, and of a write both of whose polls see the line high at
their first sample: those of three, four and five frames and the polls' (rules R120, R121, R125; the counts are what
`41_fuse_signature_ops.md` derives from them). -/
def Obligations.TransactionEventCounts : Prop :=
  (∀ (f : Fuse) (s : State), s.phase = .ready → noFailure 120 s → 135 ≤ s.grant →
    ∃ t es, exec (rdfuseInstr f) s = .next t ∧ t.trace = s.trace ++ es ∧ es.length = 3 * 40) ∧
  (∀ (j : SigIndex) (s : State), s.phase = .ready → noFailure 160 s → 179 ≤ s.grant →
    ∃ t es, exec (rdsigInstr j) s = .next t ∧ t.trace = s.trace ++ es ∧ es.length = 4 * 40) ∧
  (∀ (f : Fuse) (v : Byte) (s : State), s.phase = .ready → noFailure 202 s → (answerAt s 160).level = true →
    (answerAt s 201).level = true → 227 ≤ s.grant →
    ∃ t es, exec (wrfuseInstr f v) s = .next t ∧ t.trace = s.trace ++ es ∧ es.length = 5 * 40 + 2)

/-- After a poll's timeout nothing more of the write is issued: where the first poll times out, the trace ends with its
last low sample after four frames; where the second does, with its last low sample after five (rule R128). -/
def Obligations.TimeoutEndsWrite : Prop :=
  ∀ (f : Fuse) (v : Byte) (w : WriteRun) (s : State),
    let u := { s with timedOut := false }
    s.phase = .ready → writeRuns f v w u → writeSteps f v w u + 1 ≤ s.grant → writeOutcome w = .timeout →
    ∃ t es, exec (wrfuseInstr f v) s = .next t ∧ t.trace = s.trace ++ es ++ [.read (some false)] ∧
      (es.map callKind).count .set = (match w with | .firstTimeout _ => 4 * 32 | _ => 5 * 32) ∧
      wroutGet t.wrout f = .timeout ∧ t.err = .writeTimeout ∧ t.phase = .ready

/-- Without a bound, a poll goes on as long as its samples are low: after any number of the sequencer's steps, where no
sample so far was high, the command is still busy in the poll, and no register that a host reads has changed but
`IN_LAST` (rule R132). -/
def Obligations.UnboundedPollNeverEnds : Prop :=
  ∀ (s : State) (p : List Stmt) (n : Nat), s.setup.params.pollLimit = none → s.pos = .pollStart :: .poll :: p →
    s.busy = true → (∀ j, j < n → pollLow s j) →
    ∃ t, advance n s = t ∧ t.busy = true ∧ (∃ q, t.pos = q ++ .poll :: p) ∧ t.err = s.err ∧ t.phase = s.phase ∧
      t.out = s.out ∧ t.dir = s.dir ∧ t.result = s.result ∧ t.sig = s.sig ∧ t.cur = s.cur ∧ t.dflt = s.dflt ∧
      t.ver = s.ver ∧ t.ident = s.ident ∧ t.wrout = s.wrout ∧ (1 < n → t.inLast = false)

/-- A poll changes no line and no direction: at each of its steps the lines are as they were. After a frame, and every
poll comes after one, they are as the frame left them: `din`, `iin` and `clk` low, and `rst` and the level of `dout` as
before the frame (rules R105, R126, R226; `41_fuse_signature_ops.md` derives it from the first two). -/
def Obligations.PollHoldsLines : Prop :=
  (∀ (r : PollRun) (s : State) (p : List Stmt), s.pos = .pollStart :: .poll :: p → pollRuns r s →
    ∀ n, n ≤ pollSteps r s → (advance n s).out = s.out ∧ (advance n s).dir = s.dir) ∧
  (∀ (f : FrameName) (r : PollRun) (s : State) (p : List Stmt),
    let u := afterFrame (frameBytes f).1 (frameBytes f).2 s
    s.pos = .send f :: .pollStart :: .poll :: p → noFailure 40 s → pollRuns r u →
    ∀ n, n ≤ pollSteps r u →
      (advance (frameSteps + n) s).out = { s.out with din := false, iin := false, clk := false } ∧
      (advance (frameSteps + n) s).dir = s.dir)

/-- A bounded poll ends, whatever the transport answers, and has then taken at most `POLL_LIMIT` samples: its READ events
number at most the bound, its DELAY events are fewer, it issued no other event, and either its last sample was high and
the command goes on after the poll, or it took just as many samples as the bound, all of them low, and the write in
progress returns, or a READ failed and the abort follows (rules R28, R126, R128, R192). -/
def Obligations.BoundedPollSamples : Prop :=
  ∀ (s : State) (p : List Stmt) (l : Nat), s.setup.params.pollLimit = some l → s.pos = .pollStart :: .poll :: p →
    ∃ n t es, n ≤ 2 * l ∧ advance n s = t ∧ t.trace = s.trace ++ es ∧
      (es.map callKind).count .read ≤ l ∧ (es.map callKind).count .delay < (es.map callKind).count .read ∧
      (es.map callKind).count .set = 0 ∧ (es.map callKind).count .dir = 0 ∧ t.pollN ≤ l ∧
      ((t.pos = p ∧ es.getLast? = some (.read (some true))) ∨
       (t.pos = timeoutExit p ∧ es.getLast? = some (.read (some false)) ∧ (es.map callKind).count .read = l ∧
        t.pollN = l ∧ ∀ b, .read (some b) ∈ es → b = false) ∨
       (t.pos = [.abortSet, .abortEnd] ∧ es.getLast? = some (.read none)))

/-! ## The Device Matcher -/

/-- Identify gives the first entry whose three signature bytes all equal the argument's, and its index; none where no
entry's do (rules R163, R165). -/
def Obligations.IdentifyFirstMatch : Prop :=
  ∀ (cat : List Descriptor) (g : Signature) (k : Nat) (e : Descriptor), g ≠ { b0 := 0, b1 := 0, b2 := 0 } →
    (identify cat g = some (k, e) ↔
      cat[k]? = some e ∧ (e.sig0 = g.b0 ∧ e.sig1 = g.b1 ∧ e.sig2 = g.b2) ∧
      ∀ j e', j < k → cat[j]? = some e' → ¬(e'.sig0 = g.b0 ∧ e'.sig1 = g.b1 ∧ e'.sig2 = g.b2)) ∧
    (identify cat g = none ↔ ∀ e' ∈ cat, ¬(e'.sig0 = g.b0 ∧ e'.sig1 = g.b1 ∧ e'.sig2 = g.b2))

/-- The all-zero signature never matches, and with a well-formed catalog the explicit test for it changes no result
(rules R162, R163; `43_catalog_workflow.md` derives the second clause from them). -/
def Obligations.ZeroSignatureNeverMatches : Prop :=
  (∀ c : List Descriptor, identify c { b0 := 0, b1 := 0, b2 := 0 } = none) ∧
  (∀ (c : List Descriptor) (g : Signature), (∀ e ∈ c, e.zeroSignature = false) → identify c g = scanFrom g 0 c)

/-- IDENT completes in any phase, for every signature: `MATCH` and `DEF` as the matcher says, `ERR` 0 or 4, no event,
and everything else as it was (rules R166, R176, R195). -/
def Obligations.IdentCompletes : Prop :=
  ∀ s : State, 6 ≤ s.grant →
    exec .ident s = .next (match identify s.setup.params.catalog s.sig with
      | some (k, e) => { s with
          ident := { done := true, found := true, idx := BitVec.ofNat 4 k }
          dflt := { low := e.defL, high := e.defH, ext := e.defE }
          timedOut := false, err := .ok, busy := false, pos := [] }
      | none => { s with
          ident := { done := true, found := false, idx := 0 }
          dflt := { low := 0, high := 0, ext := 0 }
          timedOut := false, err := .unknownDevice, busy := false, pos := [] })

/-- A catalog index fits the four bits of `MATCH.IDX` for every set of parameters a block can be built with (rules
R160, R162). -/
def Obligations.CatalogIndexFits : Prop :=
  ∀ (x : Setup) (g : Signature) (k : Nat) (e : Descriptor), identify x.params.catalog g = some (k, e) →
    (BitVec.ofNat 4 k).toNat = k ∧ x.params.catalog[k]? = some e

/-- A block is refused at its construction exactly where a constraint of rule R5 is broken: a delay below its bound, a
poll bound of zero, a clock time below 220 ns, a catalog with no entry or more than sixteen, with the all-zero
signature, or without the entry of rule R161 (rules R5, R162, R225). Rule R162 says so of a catalog that is too short
or too long or has the all-zero signature; that the other constraints of rule R5 are met by refusing too is the
model's reading (log entry 6, DEDUCED). -/
def Obligations.ParametersChecked : Prop :=
  ∀ p : Params, (∃ x, Setup.configure p = .ok x ∧ x.params = p) ↔
    20 ≤ p.tPwrSettleUs ∧ 10 ≤ p.tHvSettleUs ∧ 300 ≤ p.tSdoReleaseUs ∧ p.pollLimit ≠ some 0 ∧
    220 ≤ p.tClkHighMinNs ∧ 220 ≤ p.tClkLowMinNs ∧ 1 ≤ p.catalog.length ∧ p.catalog.length ≤ 16 ∧
    (∀ e ∈ p.catalog, ¬(e.sig0 = 0 ∧ e.sig1 = 0 ∧ e.sig2 = 0)) ∧ Config.attiny85 ∈ p.catalog

/-- The open catalog stands for every catalog rules R161 and R162 allow: each is the one that some entries before and
after the entry of rule R161 give. -/
def Obligations.OpenCatalogCoversAllowed : Prop :=
  ∀ c : List Descriptor, c.length ≤ 16 → (∀ e ∈ c, e.zeroSignature = false) → Config.attiny85 ∈ c →
    ∃ before after, Setup.catalogWith before after = c

/-! ## Plans -/

/-- READALL completes: in Ready, where none of the 840 calls fails, the signature, the matcher's write and the current
FuseSet, which is read whether or not the signature matched; `ERR` 0 or 4 (rule R167). -/
def Obligations.ReadallCompletes : Prop :=
  ∀ s : State, s.phase = .ready → noFailure 840 s → 942 ≤ s.grant →
    let u := { s with timedOut := false }
    exec .readall s = .next { afterSurvey u with
      err := if (afterSurvey u).ident.found then .ok else .unknownDevice, busy := false, pos := [] }

/-- What READALL leaves at its end, and RESTORE at its test for an unknown device: the bytes that the fourth, eighth and
twelfth frame and the third, sixth and ninth frame after them returned, the matcher's result for that signature, and 840
events more; READALL leaves `VER` and `WROUT` as they were, and RESTORE has cleared them and is still busy (rules R167,
R168, R176; the step at which RESTORE is there is log entry 1's). -/
def Obligations.SurveyLeavesBytesRead : Prop :=
  ∀ s : State, s.phase = .ready → noFailure 840 s →
    let g : Signature := { b0 := byteAt s 120, b1 := byteAt s 280, b2 := byteAt s 440 }
    let read (t : State) : Prop :=
      t.sig = g ∧ t.cur = { low := byteAt s 560, high := byteAt s 680, ext := byteAt s 800 } ∧
      t.ident = matchOf s.setup.params.catalog g ∧ t.dflt = defaultsOf s.setup.params.catalog g ∧
      t.result = byteAt s 800 ∧ (∃ es, t.trace = s.trace ++ es ∧ es.length = 840) ∧
      t.phase = .ready ∧ t.dir = s.dir ∧ t.out = { s.out with din := false, iin := false, clk := false }
    (942 ≤ s.grant → ∃ t, exec .readall s = .next t ∧ read t ∧ t.ver = s.ver ∧ t.wrout = s.wrout ∧ t.busy = false) ∧
    (∃ t, exec .restore { s with grant := 949 } = .next t ∧ read t ∧ t.busy = s.busy ∧ t.err = s.err ∧
      t.ver = { low := 0, high := 0, ext := 0 } ∧
      t.wrout = { wl := .notAttempted, wh := .notAttempted, we := .notAttempted, verify := .notRun } ∧
      t.pos.head? = some .unlessFoundEnd)

/-- RESTORE completes for an unknown device: no write and no verify; the signature and the current FuseSet read;
`WROUT = 0x3F`, `MATCH = 0x80`, `DEF` zero, `ERR = 4`, and the session in Ready; its events are those of reading the
signature and the current FuseSet alone (rule R171). -/
def Obligations.RestoreUnknownDevice : Prop :=
  ∀ s : State,
    let u := afterSurvey (afterClear { s with timedOut := false })
    s.phase = .ready → noFailure 840 s → u.ident.found = false → 954 ≤ s.grant →
    ∃ t, exec .restore s = .next t ∧
      t = { u with
        wrout := { wl := .skipped, wh := .skipped, we := .skipped, verify := .notRun }
        err := .unknownDevice, busy := false, pos := [] } ∧
      wroutByte t.wrout = 0x3F ∧ matchByte t.ident = 0x80 ∧ t.dflt = { low := 0, high := 0, ext := 0 } ∧
      t.phase = .ready ∧ t.trace = (afterSurvey s).trace

/-- RESTORE completes for a known device whose default extended fuse is 0xFF, whichever way the writes end: the low and
the high byte are written, the extended one is skipped but read for the verify, and `ERR` is 3 where a write timed out.
On a target that stores what is written, both of whose writes completed and which returned 0xFF for the extended fuse
before, the verify matches; so it does where the current FuseSet equalled the defaults already (rules R168, R169, R172;
the target's clause is what `43_catalog_workflow.md` derives from rules R168 and R170 as R174, and what such a target is
is log entry 23). -/
def Obligations.RestoreSkipsExtended : Prop :=
  ∀ (wL wH : WriteRun) (s : State),
    let u := afterSurvey (afterClear { s with timedOut := false })
    let u1 := afterWrite .low u.dflt.low wL u
    let u2 := afterWrite .high u.dflt.high wH u1
    let u3 := { u2 with wrout := { u2.wrout with we := .skipped } }
    s.phase = .ready → noFailure 840 s → u.ident.found = true → u.dflt.ext = 0xFF →
    writeRuns .low u.dflt.low wL u → writeRuns .high u.dflt.high wH u1 → noFailure 360 u3 →
    1357 + writeSteps .low u.dflt.low wL u + writeSteps .high u.dflt.high wH u1 ≤ s.grant →
    ∃ t, exec .restore s = .next t ∧
      t = { afterVerify u3 with
        err := if writeOutcome wL = .timeout ∨ writeOutcome wH = .timeout then .writeTimeout else .ok
        busy := false, pos := [] } ∧
      (writeOutcome wL = .done → writeOutcome wH = .done → u.cur.ext = 0xFF →
        storingTarget u.cur [(.low, u.dflt.low), (.high, u.dflt.high)] u3 →
        t.ver = t.dflt ∧ t.wrout = { wl := .done, wh := .done, we := .skipped, verify := .matched } ∧ t.err = .ok)

/-- RESTORE completes for a known device with a default extended fuse other than 0xFF, whichever way the writes end:
all three bytes are written, a timeout of one does not stop the others or the verify, and `ERR` is 3 where a write
timed out. On a target that stores what is written and all of whose writes completed the verify matches, whatever the
current FuseSet was, and so where it equalled the defaults already (rules R168, R172; the target's clause is what
`43_catalog_workflow.md` derives from rules R168 and R170 as R174, and what such a target is is log entry 23). -/
def Obligations.RestoreWritesAllThree : Prop :=
  ∀ (wL wH wE : WriteRun) (s : State),
    let u := afterSurvey (afterClear { s with timedOut := false })
    let u1 := afterWrite .low u.dflt.low wL u
    let u2 := afterWrite .high u.dflt.high wH u1
    let u3 := afterWrite .ext u.dflt.ext wE u2
    s.phase = .ready → noFailure 840 s → u.ident.found = true → u.dflt.ext ≠ 0xFF →
    writeRuns .low u.dflt.low wL u → writeRuns .high u.dflt.high wH u1 → writeRuns .ext u.dflt.ext wE u2 →
    noFailure 360 u3 →
    1355 + writeSteps .low u.dflt.low wL u + writeSteps .high u.dflt.high wH u1 +
      writeSteps .ext u.dflt.ext wE u2 ≤ s.grant →
    ∃ t, exec .restore s = .next t ∧
      t = { afterVerify u3 with
        err := if writeOutcome wL = .timeout ∨ writeOutcome wH = .timeout ∨ writeOutcome wE = .timeout
          then .writeTimeout else .ok
        busy := false, pos := [] } ∧
      (writeOutcome wL = .done → writeOutcome wH = .done → writeOutcome wE = .done →
        storingTarget u.cur [(.low, u.dflt.low), (.high, u.dflt.high), (.ext, u.dflt.ext)] u3 →
        t.ver = t.dflt ∧ t.wrout = { wl := .done, wh := .done, we := .done, verify := .matched } ∧ t.err = .ok)

/-- The verify compares all eight bits of all three bytes, and writes nothing but `VERIFY` (rule R170). -/
def Obligations.VerifyComparesAllBytes : Prop :=
  ∀ (s : State) (p : List Stmt) (rest : List Turn), s.turns = { act := .wait, grant := 1 } :: rest →
    s.pos = .verify :: p →
    ∃ t, step s = .next t ∧
      t = { s with wrout := { s.wrout with verify := t.wrout.verify }, pos := p, turns := rest, grant := 1 } ∧
      (t.wrout.verify = .matched ↔
        s.ver.low = s.dflt.low ∧ s.ver.high = s.dflt.high ∧ s.ver.ext = s.dflt.ext) ∧
      (t.wrout.verify = .mismatch ↔
        ¬(s.ver.low = s.dflt.low ∧ s.ver.high = s.dflt.high ∧ s.ver.ext = s.dflt.ext))

/-- A register that rule R37's table does not list for a command keeps its value through it, wherever the command
stands, whatever the transport answers; an abort makes the phase Idle besides (rules R37, R144, R193). -/
def Obligations.CommandsWriteListedRegistersOnly : Prop :=
  ∀ (i : Instr) (w : CmdWord) (s t : State), commandOf i = some w → exec i s = .next t →
    keepsUnlisted (writesOf i) s t

/-! ## Invariants -/

/-- The invariant of every state holds after reset. -/
def Obligations.InvariantAtReset : Prop := BlockInv State.reset

/-- The invariant of every state is kept by every step, whatever the host does and the transport answers: `DIR` holds
one of its two values (rule R21), a block that is not busy is in Idle at the exit levels or in Ready with every line
low and data-out the input (rules R24, R108, R142, R148), and a busy block is on a way there. -/
def Obligations.InvariantKept : Prop :=
  ∀ s t : State, BlockInv s → step s = .next t → BlockInv t

/-- The invariant of the settle delays holds after reset. -/
def Obligations.SettledInvariantAtReset : Prop := SettledInv State.reset

/-- No frame and no poll before the data-out line has settled: the invariant is kept by every step, whatever the host
does and the transport answers (rules R142, R224; `42_session.md` derives it from the first). Block reset makes the
phase Idle and issues nothing, so it keeps it too. -/
def Obligations.SettledInvariantKept : Prop :=
  ∀ s t : State, SettledInv s → step s = .next t → SettledInv t

/-- Every step gives a next state: no state of the block and no act of the host ends in a fault or a refusal. That the
errors of rule R190 are outcomes after which the block goes on, and stop nothing, is the model's reading of rules R190
and R201 (log entry 18, DEDUCED). -/
def Obligations.EveryStepGoesOn : Prop :=
  ∀ s : State, ∃ t, step s = .next t

/-- The trace only grows, and `OUT`, `DIR` and `IN_LAST` are what the events of the step leave in them: the last level
and direction masks passed, failed calls included, and the last bit a READ returned; block reset alone writes them
otherwise (rules R20, R21, R22, R56, R100, R101, R102, R220). The block's parameters never change (rule R38). -/
def Obligations.RegistersFollowTrace : Prop :=
  ∀ s t : State, step s = .next t →
    t.setup = s.setup ∧
    ∃ es, t.trace = s.trace ++ es ∧
      ((nextTurn s).act ≠ .reset →
        t.out = lastSet s.out es ∧ t.dir = lastDir s.dir es ∧ t.inLast = lastRead s.inLast es) ∧
      ((nextTurn s).act = .reset → es = [])

/-- No delay returns early (rule R103). -/
def Obligations.DelaysNeverEarly : Prop :=
  ∀ s t : State, step s = .next t →
    ∃ es, t.trace = s.trace ++ es ∧ ∀ n lasted, Event.delay n lasted ∈ es → n ≤ lasted
end

