-- ==== Sys2Proof/Laws/State.lean ====
section
/-! SUPPORT. The small lemmas of the state's updates: one for each field and each update, so that no later proof
unfolds an update. -/

namespace Sys2Proof.Machine

/-! ### `drawn` -/

section
variable (n : Nat) (s : State)

@[simp] theorem drawn_out : (drawn n s).out = s.out := rfl
@[simp] theorem drawn_dir : (drawn n s).dir = s.dir := rfl
@[simp] theorem drawn_inLast : (drawn n s).inLast = s.inLast := rfl
@[simp] theorem drawn_phase : (drawn n s).phase = s.phase := rfl
@[simp] theorem drawn_busy : (drawn n s).busy = s.busy := rfl
@[simp] theorem drawn_err : (drawn n s).err = s.err := rfl
@[simp] theorem drawn_fcD : (drawn n s).fcD = s.fcD := rfl
@[simp] theorem drawn_fcI : (drawn n s).fcI = s.fcI := rfl
@[simp] theorem drawn_fcR : (drawn n s).fcR = s.fcR := rfl
@[simp] theorem drawn_fcK : (drawn n s).fcK = s.fcK := rfl
@[simp] theorem drawn_cmdw : (drawn n s).cmdw = s.cmdw := rfl
@[simp] theorem drawn_pos : (drawn n s).pos = s.pos := rfl
@[simp] theorem drawn_timedOut : (drawn n s).timedOut = s.timedOut := rfl
@[simp] theorem drawn_pollN : (drawn n s).pollN = s.pollN := rfl
@[simp] theorem drawn_result : (drawn n s).result = s.result := rfl
@[simp] theorem drawn_sig : (drawn n s).sig = s.sig := rfl
@[simp] theorem drawn_cur : (drawn n s).cur = s.cur := rfl
@[simp] theorem drawn_dflt : (drawn n s).dflt = s.dflt := rfl
@[simp] theorem drawn_ver : (drawn n s).ver = s.ver := rfl
@[simp] theorem drawn_ident : (drawn n s).ident = s.ident := rfl
@[simp] theorem drawn_wrout : (drawn n s).wrout = s.wrout := rfl
@[simp] theorem drawn_setup : (drawn n s).setup = s.setup := rfl
@[simp] theorem drawn_answers : (drawn n s).answers = s.answers.drop n := rfl
@[simp] theorem drawn_draws : (drawn n s).draws = s.draws + (n - s.answers.length) := rfl
@[simp] theorem drawn_turns : (drawn n s).turns = s.turns := rfl
@[simp] theorem drawn_grant : (drawn n s).grant = s.grant := rfl
@[simp] theorem drawn_trace : (drawn n s).trace = s.trace := rfl
@[simp] theorem drawn_seen : (drawn n s).seen = s.seen := rfl

end

/-! ### `issue` -/

section
variable (e : Event) (s : State)

@[simp] theorem issue_out : (issue e s).out = s.out := rfl
@[simp] theorem issue_dir : (issue e s).dir = s.dir := rfl
@[simp] theorem issue_inLast : (issue e s).inLast = s.inLast := rfl
@[simp] theorem issue_phase : (issue e s).phase = s.phase := rfl
@[simp] theorem issue_busy : (issue e s).busy = s.busy := rfl
@[simp] theorem issue_err : (issue e s).err = s.err := rfl
@[simp] theorem issue_fcD : (issue e s).fcD = s.fcD := rfl
@[simp] theorem issue_fcI : (issue e s).fcI = s.fcI := rfl
@[simp] theorem issue_fcR : (issue e s).fcR = s.fcR := rfl
@[simp] theorem issue_fcK : (issue e s).fcK = s.fcK := rfl
@[simp] theorem issue_cmdw : (issue e s).cmdw = s.cmdw := rfl
@[simp] theorem issue_pos : (issue e s).pos = s.pos := rfl
@[simp] theorem issue_timedOut : (issue e s).timedOut = s.timedOut := rfl
@[simp] theorem issue_pollN : (issue e s).pollN = s.pollN := rfl
@[simp] theorem issue_result : (issue e s).result = s.result := rfl
@[simp] theorem issue_sig : (issue e s).sig = s.sig := rfl
@[simp] theorem issue_cur : (issue e s).cur = s.cur := rfl
@[simp] theorem issue_dflt : (issue e s).dflt = s.dflt := rfl
@[simp] theorem issue_ver : (issue e s).ver = s.ver := rfl
@[simp] theorem issue_ident : (issue e s).ident = s.ident := rfl
@[simp] theorem issue_wrout : (issue e s).wrout = s.wrout := rfl
@[simp] theorem issue_setup : (issue e s).setup = s.setup := rfl
@[simp] theorem issue_answers : (issue e s).answers = s.answers.drop 1 := rfl
@[simp] theorem issue_draws : (issue e s).draws = s.draws + (1 - s.answers.length) := rfl
@[simp] theorem issue_turns : (issue e s).turns = s.turns := rfl
@[simp] theorem issue_grant : (issue e s).grant = s.grant := rfl
@[simp] theorem issue_trace : (issue e s).trace = s.trace ++ [e] := rfl
@[simp] theorem issue_seen : (issue e s).seen = s.seen := rfl

end

/-! ### `complete` -/

section
variable (e : ErrCode) (s : State)

@[simp] theorem complete_out : (complete e s).out = s.out := rfl
@[simp] theorem complete_dir : (complete e s).dir = s.dir := rfl
@[simp] theorem complete_inLast : (complete e s).inLast = s.inLast := rfl
@[simp] theorem complete_phase : (complete e s).phase = s.phase := rfl
@[simp] theorem complete_busy : (complete e s).busy = false := rfl
@[simp] theorem complete_err : (complete e s).err = e := rfl
@[simp] theorem complete_fcD : (complete e s).fcD = s.fcD := rfl
@[simp] theorem complete_fcI : (complete e s).fcI = s.fcI := rfl
@[simp] theorem complete_fcR : (complete e s).fcR = s.fcR := rfl
@[simp] theorem complete_fcK : (complete e s).fcK = s.fcK := rfl
@[simp] theorem complete_cmdw : (complete e s).cmdw = s.cmdw := rfl
@[simp] theorem complete_pos : (complete e s).pos = [] := rfl
@[simp] theorem complete_timedOut : (complete e s).timedOut = s.timedOut := rfl
@[simp] theorem complete_pollN : (complete e s).pollN = s.pollN := rfl
@[simp] theorem complete_result : (complete e s).result = s.result := rfl
@[simp] theorem complete_sig : (complete e s).sig = s.sig := rfl
@[simp] theorem complete_cur : (complete e s).cur = s.cur := rfl
@[simp] theorem complete_dflt : (complete e s).dflt = s.dflt := rfl
@[simp] theorem complete_ver : (complete e s).ver = s.ver := rfl
@[simp] theorem complete_ident : (complete e s).ident = s.ident := rfl
@[simp] theorem complete_wrout : (complete e s).wrout = s.wrout := rfl
@[simp] theorem complete_setup : (complete e s).setup = s.setup := rfl
@[simp] theorem complete_answers : (complete e s).answers = s.answers := rfl
@[simp] theorem complete_draws : (complete e s).draws = s.draws := rfl
@[simp] theorem complete_turns : (complete e s).turns = s.turns := rfl
@[simp] theorem complete_grant : (complete e s).grant = s.grant := rfl
@[simp] theorem complete_trace : (complete e s).trace = s.trace := rfl
@[simp] theorem complete_seen : (complete e s).seen = s.seen := rfl

end

/-! ### `accept` -/

section
variable (w : CmdWord) (s : State)

@[simp] theorem accept_out : (accept w s).out = s.out := rfl
@[simp] theorem accept_dir : (accept w s).dir = s.dir := rfl
@[simp] theorem accept_inLast : (accept w s).inLast = s.inLast := rfl
@[simp] theorem accept_phase : (accept w s).phase = s.phase := rfl
@[simp] theorem accept_busy : (accept w s).busy = true := rfl
@[simp] theorem accept_err : (accept w s).err = .ok := rfl
@[simp] theorem accept_fcD : (accept w s).fcD = s.fcD := rfl
@[simp] theorem accept_fcI : (accept w s).fcI = s.fcI := rfl
@[simp] theorem accept_fcR : (accept w s).fcR = s.fcR := rfl
@[simp] theorem accept_fcK : (accept w s).fcK = s.fcK := rfl
@[simp] theorem accept_cmdw : (accept w s).cmdw = w := rfl
@[simp] theorem accept_pos : (accept w s).pos = s.pos := rfl
@[simp] theorem accept_timedOut : (accept w s).timedOut = s.timedOut := rfl
@[simp] theorem accept_pollN : (accept w s).pollN = s.pollN := rfl
@[simp] theorem accept_result : (accept w s).result = s.result := rfl
@[simp] theorem accept_sig : (accept w s).sig = s.sig := rfl
@[simp] theorem accept_cur : (accept w s).cur = s.cur := rfl
@[simp] theorem accept_dflt : (accept w s).dflt = s.dflt := rfl
@[simp] theorem accept_ver : (accept w s).ver = s.ver := rfl
@[simp] theorem accept_ident : (accept w s).ident = s.ident := rfl
@[simp] theorem accept_wrout : (accept w s).wrout = s.wrout := rfl
@[simp] theorem accept_setup : (accept w s).setup = s.setup := rfl
@[simp] theorem accept_answers : (accept w s).answers = s.answers := rfl
@[simp] theorem accept_draws : (accept w s).draws = s.draws := rfl
@[simp] theorem accept_turns : (accept w s).turns = s.turns := rfl
@[simp] theorem accept_grant : (accept w s).grant = s.grant := rfl
@[simp] theorem accept_trace : (accept w s).trace = s.trace := rfl
@[simp] theorem accept_seen : (accept w s).seen = s.seen := rfl

end

/-! ### `call` -/

section
variable (body : List Stmt) (s : State)

@[simp] theorem call_out : (call body s).out = s.out := rfl
@[simp] theorem call_dir : (call body s).dir = s.dir := rfl
@[simp] theorem call_inLast : (call body s).inLast = s.inLast := rfl
@[simp] theorem call_phase : (call body s).phase = s.phase := rfl
@[simp] theorem call_busy : (call body s).busy = s.busy := rfl
@[simp] theorem call_err : (call body s).err = s.err := rfl
@[simp] theorem call_fcD : (call body s).fcD = s.fcD := rfl
@[simp] theorem call_fcI : (call body s).fcI = s.fcI := rfl
@[simp] theorem call_fcR : (call body s).fcR = s.fcR := rfl
@[simp] theorem call_fcK : (call body s).fcK = s.fcK := rfl
@[simp] theorem call_cmdw : (call body s).cmdw = s.cmdw := rfl
@[simp] theorem call_pos : (call body s).pos = body ++ s.pos := rfl
@[simp] theorem call_timedOut : (call body s).timedOut = s.timedOut := rfl
@[simp] theorem call_pollN : (call body s).pollN = s.pollN := rfl
@[simp] theorem call_result : (call body s).result = s.result := rfl
@[simp] theorem call_sig : (call body s).sig = s.sig := rfl
@[simp] theorem call_cur : (call body s).cur = s.cur := rfl
@[simp] theorem call_dflt : (call body s).dflt = s.dflt := rfl
@[simp] theorem call_ver : (call body s).ver = s.ver := rfl
@[simp] theorem call_ident : (call body s).ident = s.ident := rfl
@[simp] theorem call_wrout : (call body s).wrout = s.wrout := rfl
@[simp] theorem call_setup : (call body s).setup = s.setup := rfl
@[simp] theorem call_answers : (call body s).answers = s.answers := rfl
@[simp] theorem call_draws : (call body s).draws = s.draws := rfl
@[simp] theorem call_turns : (call body s).turns = s.turns := rfl
@[simp] theorem call_grant : (call body s).grant = s.grant := rfl
@[simp] theorem call_trace : (call body s).trace = s.trace := rfl
@[simp] theorem call_seen : (call body s).seen = s.seen := rfl

end

/-! ### `recordWrite` -/

section
variable (f : Fuse) (r : WriteOutcome) (s : State)

@[simp] theorem recordWrite_out : (recordWrite f r s).out = s.out := rfl
@[simp] theorem recordWrite_dir : (recordWrite f r s).dir = s.dir := rfl
@[simp] theorem recordWrite_inLast : (recordWrite f r s).inLast = s.inLast := rfl
@[simp] theorem recordWrite_phase : (recordWrite f r s).phase = s.phase := rfl
@[simp] theorem recordWrite_busy : (recordWrite f r s).busy = s.busy := rfl
@[simp] theorem recordWrite_err : (recordWrite f r s).err = s.err := rfl
@[simp] theorem recordWrite_fcD : (recordWrite f r s).fcD = s.fcD := rfl
@[simp] theorem recordWrite_fcI : (recordWrite f r s).fcI = s.fcI := rfl
@[simp] theorem recordWrite_fcR : (recordWrite f r s).fcR = s.fcR := rfl
@[simp] theorem recordWrite_fcK : (recordWrite f r s).fcK = s.fcK := rfl
@[simp] theorem recordWrite_cmdw : (recordWrite f r s).cmdw = s.cmdw := rfl
@[simp] theorem recordWrite_pos : (recordWrite f r s).pos = s.pos := rfl
@[simp] theorem recordWrite_timedOut : (recordWrite f r s).timedOut = (s.timedOut || r == .timeout) := rfl
@[simp] theorem recordWrite_pollN : (recordWrite f r s).pollN = s.pollN := rfl
@[simp] theorem recordWrite_result : (recordWrite f r s).result = s.result := rfl
@[simp] theorem recordWrite_sig : (recordWrite f r s).sig = s.sig := rfl
@[simp] theorem recordWrite_cur : (recordWrite f r s).cur = s.cur := rfl
@[simp] theorem recordWrite_dflt : (recordWrite f r s).dflt = s.dflt := rfl
@[simp] theorem recordWrite_ver : (recordWrite f r s).ver = s.ver := rfl
@[simp] theorem recordWrite_ident : (recordWrite f r s).ident = s.ident := rfl
@[simp] theorem recordWrite_wrout : (recordWrite f r s).wrout = wroutSet s.wrout f r := rfl
@[simp] theorem recordWrite_setup : (recordWrite f r s).setup = s.setup := rfl
@[simp] theorem recordWrite_answers : (recordWrite f r s).answers = s.answers := rfl
@[simp] theorem recordWrite_draws : (recordWrite f r s).draws = s.draws := rfl
@[simp] theorem recordWrite_turns : (recordWrite f r s).turns = s.turns := rfl
@[simp] theorem recordWrite_grant : (recordWrite f r s).grant = s.grant := rfl
@[simp] theorem recordWrite_trace : (recordWrite f r s).trace = s.trace := rfl
@[simp] theorem recordWrite_seen : (recordWrite f r s).seen = s.seen := rfl

end

/-! ### `takeTurn` -/

section
variable (s : State)

@[simp] theorem takeTurn_out : (takeTurn s).out = s.out := rfl
@[simp] theorem takeTurn_dir : (takeTurn s).dir = s.dir := rfl
@[simp] theorem takeTurn_inLast : (takeTurn s).inLast = s.inLast := rfl
@[simp] theorem takeTurn_phase : (takeTurn s).phase = s.phase := rfl
@[simp] theorem takeTurn_busy : (takeTurn s).busy = s.busy := rfl
@[simp] theorem takeTurn_err : (takeTurn s).err = s.err := rfl
@[simp] theorem takeTurn_fcD : (takeTurn s).fcD = s.fcD := rfl
@[simp] theorem takeTurn_fcI : (takeTurn s).fcI = s.fcI := rfl
@[simp] theorem takeTurn_fcR : (takeTurn s).fcR = s.fcR := rfl
@[simp] theorem takeTurn_fcK : (takeTurn s).fcK = s.fcK := rfl
@[simp] theorem takeTurn_cmdw : (takeTurn s).cmdw = s.cmdw := rfl
@[simp] theorem takeTurn_pos : (takeTurn s).pos = s.pos := rfl
@[simp] theorem takeTurn_timedOut : (takeTurn s).timedOut = s.timedOut := rfl
@[simp] theorem takeTurn_pollN : (takeTurn s).pollN = s.pollN := rfl
@[simp] theorem takeTurn_result : (takeTurn s).result = s.result := rfl
@[simp] theorem takeTurn_sig : (takeTurn s).sig = s.sig := rfl
@[simp] theorem takeTurn_cur : (takeTurn s).cur = s.cur := rfl
@[simp] theorem takeTurn_dflt : (takeTurn s).dflt = s.dflt := rfl
@[simp] theorem takeTurn_ver : (takeTurn s).ver = s.ver := rfl
@[simp] theorem takeTurn_ident : (takeTurn s).ident = s.ident := rfl
@[simp] theorem takeTurn_wrout : (takeTurn s).wrout = s.wrout := rfl
@[simp] theorem takeTurn_setup : (takeTurn s).setup = s.setup := rfl
@[simp] theorem takeTurn_answers : (takeTurn s).answers = s.answers := rfl
@[simp] theorem takeTurn_draws : (takeTurn s).draws = s.draws := rfl
@[simp] theorem takeTurn_turns : (takeTurn s).turns = s.turns.tail := rfl
@[simp] theorem takeTurn_grant : (takeTurn s).grant = (nextTurn s).grant := rfl
@[simp] theorem takeTurn_trace : (takeTurn s).trace = s.trace := rfl
@[simp] theorem takeTurn_seen : (takeTurn s).seen = s.seen := rfl

end

/-! ### `noteRead` -/

section
variable (a : RegAddr) (s : State)

@[simp] theorem noteRead_out : (noteRead a s).out = s.out := rfl
@[simp] theorem noteRead_dir : (noteRead a s).dir = s.dir := rfl
@[simp] theorem noteRead_inLast : (noteRead a s).inLast = s.inLast := rfl
@[simp] theorem noteRead_phase : (noteRead a s).phase = s.phase := rfl
@[simp] theorem noteRead_busy : (noteRead a s).busy = s.busy := rfl
@[simp] theorem noteRead_err : (noteRead a s).err = s.err := rfl
@[simp] theorem noteRead_fcD : (noteRead a s).fcD = s.fcD := rfl
@[simp] theorem noteRead_fcI : (noteRead a s).fcI = s.fcI := rfl
@[simp] theorem noteRead_fcR : (noteRead a s).fcR = s.fcR := rfl
@[simp] theorem noteRead_fcK : (noteRead a s).fcK = s.fcK := rfl
@[simp] theorem noteRead_cmdw : (noteRead a s).cmdw = s.cmdw := rfl
@[simp] theorem noteRead_pos : (noteRead a s).pos = s.pos := rfl
@[simp] theorem noteRead_timedOut : (noteRead a s).timedOut = s.timedOut := rfl
@[simp] theorem noteRead_pollN : (noteRead a s).pollN = s.pollN := rfl
@[simp] theorem noteRead_result : (noteRead a s).result = s.result := rfl
@[simp] theorem noteRead_sig : (noteRead a s).sig = s.sig := rfl
@[simp] theorem noteRead_cur : (noteRead a s).cur = s.cur := rfl
@[simp] theorem noteRead_dflt : (noteRead a s).dflt = s.dflt := rfl
@[simp] theorem noteRead_ver : (noteRead a s).ver = s.ver := rfl
@[simp] theorem noteRead_ident : (noteRead a s).ident = s.ident := rfl
@[simp] theorem noteRead_wrout : (noteRead a s).wrout = s.wrout := rfl
@[simp] theorem noteRead_setup : (noteRead a s).setup = s.setup := rfl
@[simp] theorem noteRead_answers : (noteRead a s).answers = s.answers := rfl
@[simp] theorem noteRead_draws : (noteRead a s).draws = s.draws := rfl
@[simp] theorem noteRead_turns : (noteRead a s).turns = s.turns := rfl
@[simp] theorem noteRead_grant : (noteRead a s).grant = s.grant := rfl
@[simp] theorem noteRead_trace : (noteRead a s).trace = s.trace := rfl
@[simp] theorem noteRead_seen : (noteRead a s).seen = s.seen ++ [(a, hostRead s a)] := rfl

end

/-! ### the transport's answers -/

@[simp] theorem drawn_zero (s : State) : drawn 0 s = s := by simp [drawn]

/-- Answers taken in two portions are answers taken at once. -/
@[simp] theorem drawn_drawn (m n : Nat) (s : State) : drawn m (drawn n s) = drawn (n + m) s := by
  have h : s.draws + (n - s.answers.length) + (m - (s.answers.length - n)) = s.draws + (n + m - s.answers.length) := by
    omega
  simp [drawn, h]

/-- The answers to come after n were taken are the later ones. -/
@[simp] theorem answerAt_drawn (n k : Nat) (s : State) : answerAt (drawn n s) k = answerAt s (n + k) := by
  have h : s.draws + (n - s.answers.length) + (k - (s.answers.length - n)) = s.draws + (n + k - s.answers.length) := by
    omega
  simp [answerAt, h]

@[simp] theorem answerAt_issue (e : Event) (k : Nat) (s : State) : answerAt (issue e s) k = answerAt s (1 + k) :=
  answerAt_drawn 1 k s

/-- Only the answers and their counter say what the transport is going to answer. -/
theorem answerAt_congr {s t : State} (ha : t.answers = s.answers) (hd : t.draws = s.draws) (k : Nat) :
    answerAt t k = answerAt s k := by
  simp [answerAt, ha, hd]

end Sys2Proof.Machine
end

