-- ==== Sys2Proof/Laws/Ops.lean ====
section
/-! SUPPORT. What the shared operations can do, once each: a transport call goes on or raises its failure; the
sequencer's advance; what a statement leaves alone. -/

namespace Sys2Proof.Machine

/-! ## Transport calls -/

theorem setLines_ok {s : State} (p : OnFail) (l : Lines) (h : (answerAt s 0).fails = false) :
    setLines p l s = issue (.set l true) { s with out := l } := by simp [setLines, h]

theorem setLines_fail {s : State} (p : OnFail) (l : Lines) (h : (answerAt s 0).fails = true) :
    setLines p l s = raiseFailure p (issue (.set l false) { s with out := l }) := by simp [setLines, h]

theorem dirLines_ok {s : State} (p : OnFail) (m : Lines) (h : (answerAt s 0).fails = false) :
    dirLines p m s = issue (.dir m true) { s with dir := m } := by simp [dirLines, h]

theorem dirLines_fail {s : State} (p : OnFail) (m : Lines) (h : (answerAt s 0).fails = true) :
    dirLines p m s = raiseFailure p (issue (.dir m false) { s with dir := m }) := by simp [dirLines, h]

theorem sample_ok {s : State} (use : Bool → State → State) (h : (answerAt s 0).fails = false) :
    sample use s = use (answerAt s 0).level
      (issue (.read (some (answerAt s 0).level)) { s with inLast := (answerAt s 0).level }) := by
  simp [sample, h]

theorem sample_fail {s : State} (use : Bool → State → State) (h : (answerAt s 0).fails = true) :
    sample use s = raiseFailure .abort (issue (.read none) s) := by simp [sample, h]

/-- Everything a SET can do. -/
theorem setLines_cases (p : OnFail) (l : Lines) (s : State) :
    ((answerAt s 0).fails = false ∧ setLines p l s = issue (.set l true) { s with out := l }) ∨
    ((answerAt s 0).fails = true ∧ setLines p l s = raiseFailure p (issue (.set l false) { s with out := l })) := by
  cases h : (answerAt s 0).fails
  · exact .inl ⟨rfl, setLines_ok p l h⟩
  · exact .inr ⟨rfl, setLines_fail p l h⟩

/-- Everything a DIR can do. -/
theorem dirLines_cases (p : OnFail) (m : Lines) (s : State) :
    ((answerAt s 0).fails = false ∧ dirLines p m s = issue (.dir m true) { s with dir := m }) ∨
    ((answerAt s 0).fails = true ∧ dirLines p m s = raiseFailure p (issue (.dir m false) { s with dir := m })) := by
  cases h : (answerAt s 0).fails
  · exact .inl ⟨rfl, dirLines_ok p m h⟩
  · exact .inr ⟨rfl, dirLines_fail p m h⟩

/-- Everything a READ can do. -/
theorem sample_cases (use : Bool → State → State) (s : State) :
    ((answerAt s 0).fails = false ∧ sample use s = use (answerAt s 0).level
      (issue (.read (some (answerAt s 0).level)) { s with inLast := (answerAt s 0).level })) ∨
    ((answerAt s 0).fails = true ∧ sample use s = raiseFailure .abort (issue (.read none) s)) := by
  cases h : (answerAt s 0).fails
  · exact .inl ⟨rfl, sample_ok use h⟩
  · exact .inr ⟨rfl, sample_fail use h⟩

/-- Everything the failure of a transport call leads to. -/
theorem raiseFailure_cases (p : OnFail) (s : State) :
    (p = .abort ∧ raiseFailure p s = { s with pos := [.abortSet, .abortEnd] }) ∨
    (p = .exitFailed ∧ raiseFailure p s = { s with pos := [.abortEnd] }) ∨
    (p = .unavailable ∧ raiseFailure p s = complete .transportUnavailable { s with phase := .idle }) := by
  cases p <;> simp [raiseFailure]

/-- Everything a poll does with a sample. -/
theorem pollSample_cases (b : Bool) (s : State) :
    (b = true ∧ pollSample b s = s) ∨
    (b = false ∧ pollLimitReached s.setup.params.pollLimit (s.pollN + 1) = true ∧
      pollSample b s = { s with pollN := s.pollN + 1, pos := timeoutExit s.pos }) ∨
    (b = false ∧ pollLimitReached s.setup.params.pollLimit (s.pollN + 1) = false ∧
      pollSample b s =
        { s with pollN := s.pollN + 1, pos := pollAgain s.setup.params.pollIntervalUs ++ s.pos }) := by
  cases b
  · cases h : pollLimitReached s.setup.params.pollLimit (s.pollN + 1) <;> simp [pollSample, h]
  · simp [pollSample]

/-- The matcher's first write changes MATCH alone. -/
theorem identifyMatch_only (s : State) : ∃ m, identifyMatch s = { s with ident := m } := by
  unfold identifyMatch
  split <;> exact ⟨_, rfl⟩

/-- The matcher's other writes change one byte of DEF each. -/
theorem identifyDef_only (f : Fuse) (s : State) :
    ∃ v, identifyDef f s = { s with dflt := fuseSet s.dflt f v } := by
  unfold identifyDef
  split <;> exact ⟨_, rfl⟩

/-! ## Transport calls in a run

A run that began at `s` and has made n transport calls is a state `t` whose answers are those of `s` less the first n. -/

/-- What the transport answers in a run that has made n calls. -/
theorem answerAt_run {s t : State} {n : Nat} (ha : t.answers = s.answers.drop n)
    (hd : t.draws = s.draws + (n - s.answers.length)) (k : Nat) : answerAt t k = answerAt s (n + k) := by
  rw [← answerAt_drawn n k s]
  exact answerAt_congr ha hd k

/-- One event in a run that has made n calls. -/
theorem issue_run {s t : State} {n : Nat} (ha : t.answers = s.answers.drop n)
    (hd : t.draws = s.draws + (n - s.answers.length)) (e : Event) :
    issue e t = { t with
      answers := s.answers.drop (n + 1), draws := s.draws + (n + 1 - s.answers.length), trace := t.trace ++ [e] } := by
  have h : t.draws + (1 - t.answers.length) = s.draws + (n + 1 - s.answers.length) := by
    rw [ha, hd, List.length_drop]; omega
  have ha' : t.answers.drop 1 = s.answers.drop (n + 1) := by rw [ha, List.drop_drop]
  simp only [issue, drawn, h, ha']

/-- A SET that does not fail, in a run that has made n calls. -/
theorem setLines_run {s t : State} {n : Nat} (ha : t.answers = s.answers.drop n)
    (hd : t.draws = s.draws + (n - s.answers.length)) (h : (answerAt s n).fails = false) (p : OnFail) (l : Lines) :
    setLines p l t = { t with
      out := l, answers := s.answers.drop (n + 1), draws := s.draws + (n + 1 - s.answers.length)
      trace := t.trace ++ [.set l true] } := by
  rw [setLines_ok p l (by rw [answerAt_run ha hd]; exact h)]
  exact issue_run (t := { t with out := l }) ha hd _

/-- A DIR that does not fail, in a run that has made n calls. -/
theorem dirLines_run {s t : State} {n : Nat} (ha : t.answers = s.answers.drop n)
    (hd : t.draws = s.draws + (n - s.answers.length)) (h : (answerAt s n).fails = false) (p : OnFail) (m : Lines) :
    dirLines p m t = { t with
      dir := m, answers := s.answers.drop (n + 1), draws := s.draws + (n + 1 - s.answers.length)
      trace := t.trace ++ [.dir m true] } := by
  rw [dirLines_ok p m (by rw [answerAt_run ha hd]; exact h)]
  exact issue_run (t := { t with dir := m }) ha hd _

/-- A READ that does not fail, in a run that has made n calls. -/
theorem sample_run {s t : State} {n : Nat} (ha : t.answers = s.answers.drop n)
    (hd : t.draws = s.draws + (n - s.answers.length)) (h : (answerAt s n).fails = false)
    (use : Bool → State → State) :
    sample use t = use (answerAt s n).level { t with
      inLast := (answerAt s n).level, answers := s.answers.drop (n + 1)
      draws := s.draws + (n + 1 - s.answers.length), trace := t.trace ++ [.read (some (answerAt s n).level)] } := by
  have ht : answerAt t 0 = answerAt s n := answerAt_run ha hd 0
  rw [sample_ok use (by rw [ht]; exact h), ht]
  exact congrArg _ (issue_run (t := { t with inLast := (answerAt s n).level }) ha hd _)

/-- A DELAY in a run that has made n calls. -/
theorem delayFor_run {s t : State} {n : Nat} (ha : t.answers = s.answers.drop n)
    (hd : t.draws = s.draws + (n - s.answers.length)) (micros : Nat) :
    delayFor micros t = { t with
      answers := s.answers.drop (n + 1), draws := s.draws + (n + 1 - s.answers.length)
      trace := t.trace ++ [.delay micros (micros + (answerAt s n).late)] } := by
  have ht : answerAt t 0 = answerAt s n := answerAt_run ha hd 0
  unfold delayFor
  rw [ht]
  exact issue_run ha hd _

/-- A SET that fails, in a run that has made n calls. -/
theorem setLines_failed_run {s t : State} {n : Nat} (ha : t.answers = s.answers.drop n)
    (hd : t.draws = s.draws + (n - s.answers.length)) (h : (answerAt s n).fails = true) (p : OnFail) (l : Lines) :
    setLines p l t = raiseFailure p { t with
      out := l, answers := s.answers.drop (n + 1), draws := s.draws + (n + 1 - s.answers.length)
      trace := t.trace ++ [.set l false] } := by
  rw [setLines_fail p l (by rw [answerAt_run ha hd]; exact h)]
  exact congrArg _ (issue_run (t := { t with out := l }) ha hd _)

/-- A DIR that fails, in a run that has made n calls. -/
theorem dirLines_failed_run {s t : State} {n : Nat} (ha : t.answers = s.answers.drop n)
    (hd : t.draws = s.draws + (n - s.answers.length)) (h : (answerAt s n).fails = true) (p : OnFail) (m : Lines) :
    dirLines p m t = raiseFailure p { t with
      dir := m, answers := s.answers.drop (n + 1), draws := s.draws + (n + 1 - s.answers.length)
      trace := t.trace ++ [.dir m false] } := by
  rw [dirLines_fail p m (by rw [answerAt_run ha hd]; exact h)]
  exact congrArg _ (issue_run (t := { t with dir := m }) ha hd _)

/-- A READ that fails, in a run that has made n calls. -/
theorem sample_failed_run {s t : State} {n : Nat} (ha : t.answers = s.answers.drop n)
    (hd : t.draws = s.draws + (n - s.answers.length)) (h : (answerAt s n).fails = true)
    (use : Bool → State → State) :
    sample use t = raiseFailure .abort { t with
      answers := s.answers.drop (n + 1), draws := s.draws + (n + 1 - s.answers.length)
      trace := t.trace ++ [.read none] } := by
  rw [sample_fail use (by rw [answerAt_run ha hd]; exact h)]
  exact congrArg _ (issue_run ha hd _)

/-! ## The sequencer -/

@[simp] theorem advance_zero (s : State) : advance 0 s = s := rfl

/-- Where no statement remains the sequencer stands still. -/
theorem advance_idle {s : State} (h : s.pos = []) (n : Nat) : advance n s = s := by
  cases n <;> simp [advance, h]

/-- One step of the sequencer. -/
theorem advance_cons {s : State} {st : Stmt} {rest : List Stmt} (h : s.pos = st :: rest) (n : Nat) :
    advance (n + 1) s = advance n (runStmt st { s with pos := rest }) := by
  simp [advance, h]

/-- The sequencer's way does not depend on how its steps are granted. -/
theorem advance_add (m n : Nat) (s : State) : advance (m + n) s = advance n (advance m s) := by
  induction m generalizing s with
  | zero => simp
  | succ m ih =>
    rw [show m + 1 + n = (m + n) + 1 by omega]
    cases h : s.pos with
    | nil => simp [advance, h, advance_idle h]
    | cons st rest => rw [advance_cons h, advance_cons h, ih]

/-- The abort's two steps, in a run that has made n calls. -/
theorem abort_run {s t : State} {n : Nat} (ha : t.answers = s.answers.drop n)
    (hd : t.draws = s.draws + (n - s.answers.length)) (hp : t.pos = [.abortSet, .abortEnd]) :
    advance 2 t = { t with
      out := exitLevels, phase := .idle, err := .transportIoFailure, busy := false, pos := []
      answers := s.answers.drop (n + 1), draws := s.draws + (n + 1 - s.answers.length)
      trace := t.trace ++ [.set exitLevels (!(answerAt s n).fails)] } := by
  rw [show (2 : Nat) = 1 + 1 from rfl, advance_cons hp]
  have h : runStmt .abortSet { t with pos := [.abortEnd] } = { t with
      out := exitLevels, pos := [.abortEnd]
      answers := s.answers.drop (n + 1), draws := s.draws + (n + 1 - s.answers.length)
      trace := t.trace ++ [.set exitLevels (!(answerAt s n).fails)] } := by
    have ht : answerAt { t with pos := [.abortEnd] } 0 = answerAt s n := answerAt_run ha hd 0
    simp only [runStmt, abortExit, ht]
    exact issue_run (t := { t with out := exitLevels, pos := [.abortEnd] }) ha hd _
  rw [h, advance_cons rfl 0]
  rfl

/-- What a property of every statement gives for the sequencer's advance. -/
theorem advance_induction {P : State → Prop}
    (hstep : ∀ (st : Stmt) (rest : List Stmt) (s : State), s.pos = st :: rest → P s →
      P (runStmt st { s with pos := rest })) (n : Nat) (s : State) (h : P s) : P (advance n s) := by
  induction n generalizing s with
  | zero => exact h
  | succ n ih =>
    cases hp : s.pos with
    | nil => rw [advance_idle hp]; exact h
    | cons st rest => rw [advance_cons hp]; exact ih _ (hstep st rest s hp h)

/-! ## What the surroundings of the block keep -/

/-- No statement changes the block's parameters, the command word, the host's turns, the grant or what the host read. -/
theorem runStmt_surroundings (st : Stmt) (s : State) :
    (runStmt st s).setup = s.setup ∧ (runStmt st s).cmdw = s.cmdw ∧ (runStmt st s).turns = s.turns ∧
    (runStmt st s).grant = s.grant ∧ (runStmt st s).seen = s.seen := by
  have hset : ∀ p l (t : State), (setLines p l t).setup = t.setup ∧ (setLines p l t).cmdw = t.cmdw ∧
      (setLines p l t).turns = t.turns ∧ (setLines p l t).grant = t.grant ∧ (setLines p l t).seen = t.seen := by
    intro p l t
    obtain ⟨-, h⟩ | ⟨-, h⟩ := setLines_cases p l t
    · simp [h]
    · rw [h]; cases p <;> simp [raiseFailure]
  have hdir : ∀ p m (t : State), (dirLines p m t).setup = t.setup ∧ (dirLines p m t).cmdw = t.cmdw ∧
      (dirLines p m t).turns = t.turns ∧ (dirLines p m t).grant = t.grant ∧ (dirLines p m t).seen = t.seen := by
    intro p m t
    obtain ⟨-, h⟩ | ⟨-, h⟩ := dirLines_cases p m t
    · simp [h]
    · rw [h]; cases p <;> simp [raiseFailure]
  cases st with
  | set p l => exact hset p l s
  | dir p m => exact hdir p m s
  | driveZero => exact hset _ _ s
  | driveBit k => exact hset _ _ s
  | clock b => exact hset _ _ s
  | sampleBit k =>
    obtain ⟨-, h⟩ | ⟨-, h⟩ := sample_cases (takeBit k) s
    · simp only [runStmt, h]; simp [takeBit]
    · simp only [runStmt, h]; simp [raiseFailure]
  | poll =>
    obtain ⟨-, h⟩ | ⟨-, h⟩ := sample_cases pollSample s
    · simp only [runStmt, h]
      obtain ⟨-, h⟩ | ⟨-, -, h⟩ | ⟨-, -, h⟩ := pollSample_cases (answerAt s 0).level
        (issue (.read (some (answerAt s 0).level)) { s with inLast := (answerAt s 0).level }) <;> rw [h] <;> simp
    · simp only [runStmt, h]; simp [raiseFailure]
  | identifyMatch => obtain ⟨m, h⟩ := identifyMatch_only s; simp [runStmt, h]
  | identifyDef f => obtain ⟨v, h⟩ := identifyDef_only f s; simp [runStmt, h]
  | unlessFoundEnd => cases h : s.ident.found <;> simp [runStmt, unlessFoundEnd, h]
  | _ => simp [runStmt, startFrame, delayFor, writeExtended, verifyFuses, abortExit, abortFinish]

/-- No advance of the sequencer changes them either. -/
theorem advance_surroundings (n : Nat) (s : State) :
    (advance n s).setup = s.setup ∧ (advance n s).cmdw = s.cmdw ∧ (advance n s).turns = s.turns ∧
    (advance n s).grant = s.grant ∧ (advance n s).seen = s.seen :=
  advance_induction (P := fun t => t.setup = s.setup ∧ t.cmdw = s.cmdw ∧ t.turns = s.turns ∧ t.grant = s.grant ∧
      t.seen = s.seen)
    (fun st rest t _ h => by
      have := runStmt_surroundings st { t with pos := rest }
      simp_all) n s ⟨rfl, rfl, rfl, rfl, rfl⟩

end Sys2Proof.Machine
end

