-- ==== Sys2Proof/Laws/Exec.lean ====
section
/-! SUPPORT. What a step can do, once: the cases of `fetch`, and every meaning as an advance of the sequencer from the
state the instruction begins at. -/

namespace Sys2Proof.Machine

/-- The state from which the sequencer runs an instruction. -/
def startOf (i : Instr) (s : State) : State :=
  match i with
  | .enter => begin .enter (enterProgram s.setup.params) s
  | .exit => begin .exit exitProgram s
  | .frame d b => begin (.frame d b) (frameProgram d b) s
  | .rdfuseL => begin .rdfuseL (rdfuseProgram .low) s
  | .rdfuseH => begin .rdfuseH (rdfuseProgram .high) s
  | .rdfuseE => begin .rdfuseE (rdfuseProgram .ext) s
  | .rdsig0 => begin .rdsig0 (rdsigProgram 0) s
  | .rdsig1 => begin .rdsig1 (rdsigProgram 1) s
  | .rdsig2 => begin .rdsig2 (rdsigProgram 2) s
  | .wrfuseL v => begin (.wrfuseL v) (wrfuseProgram .low v) s
  | .wrfuseH v => begin (.wrfuseH v) (wrfuseProgram .high v) s
  | .wrfuseE v => begin (.wrfuseE v) (wrfuseProgram .ext v) s
  | .ident => begin .ident identProgram s
  | .readall => begin .readall readallProgram s
  | .restore => begin .restore restoreProgram s
  | .enterFuseRead => { s with pos := .send .enterFuseRead :: s.pos }
  | .enterSigRead => { s with pos := .send .enterSigRead :: s.pos }
  | .enterFuseWrite => { s with pos := .send .enterFuseWrite :: s.pos }
  | .loadData v => { s with pos := .send (.loadData v) :: s.pos }
  | .sigSelect0 => { s with pos := .send (.sigSelect 0) :: s.pos }
  | .sigSelect1 => { s with pos := .send (.sigSelect 1) :: s.pos }
  | .sigSelect2 => { s with pos := .send (.sigSelect 2) :: s.pos }
  | .sigShiftA => { s with pos := .send .sigShiftA :: s.pos }
  | .sigShiftB => { s with pos := .send .sigShiftB :: s.pos }
  | .fuseSelectL => { s with pos := .send (.fuseSelect .low) :: s.pos }
  | .fuseShiftL => { s with pos := .send (.fuseShift .low) :: s.pos }
  | .fuseSelectH => { s with pos := .send (.fuseSelect .high) :: s.pos }
  | .fuseShiftH => { s with pos := .send (.fuseShift .high) :: s.pos }
  | .fuseSelectE => { s with pos := .send (.fuseSelect .ext) :: s.pos }
  | .fuseShiftE => { s with pos := .send (.fuseShift .ext) :: s.pos }
  | .writeStrobeAL => { s with pos := .send (.writeStrobeA .low) :: s.pos }
  | .writeStrobeBL => { s with pos := .send (.writeStrobeB .low) :: s.pos }
  | .writeStrobeAH => { s with pos := .send (.writeStrobeA .high) :: s.pos }
  | .writeStrobeBH => { s with pos := .send (.writeStrobeB .high) :: s.pos }
  | .writeStrobeAE => { s with pos := .send (.writeStrobeA .ext) :: s.pos }
  | .writeStrobeBE => { s with pos := .send (.writeStrobeB .ext) :: s.pos }
  | .writeEnd => { s with pos := .send .writeEnd :: s.pos }

/-- Every meaning is the sequencer's advance from the state its instruction begins at. -/
theorem exec_advance (i : Instr) (s : State) : exec i s = .next (advance s.grant (startOf i s)) := by
  cases i <;> rfl

/-- A frame constant begins with its frame before the statements that remain. -/
theorem startOf_frameInstr (f : FrameName) (s : State) :
    startOf (frameInstr f) s = { s with pos := .send f :: s.pos } := by
  cases f with
  | sigSelect j => rcases j with ⟨j, h⟩; interval_cases j <;> rfl
  | fuseSelect f => cases f <;> rfl
  | fuseShift f => cases f <;> rfl
  | writeStrobeA f => cases f <;> rfl
  | writeStrobeB f => cases f <;> rfl
  | _ => rfl

/-- An advance that ends with no statement left is the advance by any number of steps that is no smaller. -/
theorem advance_to_end {n m : Nat} {s t : State} (h : advance n s = t) (hp : t.pos = []) (hm : n ≤ m) :
    advance m s = t := by
  obtain ⟨k, rfl⟩ := Nat.exists_eq_add_of_le hm
  rw [advance_add, h, advance_idle hp]

/-- A meaning whose advance ends with no statement left, where the turn grants the steps. -/
theorem exec_to_end {i : Instr} {n : Nat} {s t : State} (h : advance n (startOf i s) = t) (hp : t.pos = [])
    (hn : n ≤ s.grant) : exec i s = .next t := by
  rw [exec_advance, advance_to_end h hp hn]

/-- A command that is allowed begins with its statements. -/
theorem begin_allowed {i : Instr} {s : State} (program : List Stmt) (h : allowedIn s.phase i = true) :
    begin i program s = { s with pos := program, timedOut := false } := by simp [begin, h]

/-- A command that is not allowed completes at once. -/
theorem begin_refused {i : Instr} {s : State} (program : List Stmt) (h : allowedIn s.phase i = false) :
    begin i program s = complete .wrongPhase s := by simp [begin, h]

/-- Everything a step can do: what `fetch` finds is run by the sequencer. -/
theorem step_cases {s t : State} (h : step s = .next t) :
    (∃ i u, fetch s = .instr i u ∧ t = advance u.grant (startOf i u)) ∨
    (∃ u, fetch s = .proceed u ∧ t = advance u.grant u) := by
  unfold step at h
  split at h
  · rename_i i u hf
    rw [exec_advance] at h
    exact .inl ⟨i, u, hf, by injection h with h; exact h.symm⟩
  · rename_i u hf
    exact .inr ⟨u, hf, by injection h with h; exact h.symm⟩

/-- Where the host waits, the sequencer goes on from where it stands. -/
theorem step_wait (s : State) (h : (nextTurn s).act = .wait) :
    step s = .next (advance (takeTurn s).grant (takeTurn s)) := by
  have hf : fetch s = fetchStatement (takeTurn s) := by simp [fetch, h, actOn]
  unfold step
  rw [hf]
  unfold fetchStatement
  split
  · rename_i f rest hp hfe
    split at hfe
    · rename_i g r hg
      injection hfe with h1 h2
      subst h1 h2
      rw [exec_advance, startOf_frameInstr]
      simp only [← hg]
    · cases hfe
  · rename_i u hfe
    split at hfe
    · cases hfe
    · injection hfe with h1
      subst h1; rfl

end Sys2Proof.Machine
end

