-- ==== Sys2Proof/Laws/Frame.lean ====
section
/-! SUPPORT. What a frame does, once: forty-four steps of the sequencer that meet no failure leave `afterFrame`. -/

namespace Sys2Proof.Machine

/-- Two advances that meet are one. -/
theorem advance_then {n m : Nat} {s t u : State} (h : advance n s = t) (h' : advance m t = u) :
    advance (n + m) s = u := by rw [advance_add, h, h']

/-- The first step of an advance. -/
theorem advance_one {s : State} {st : Stmt} {rest : List Stmt} (h : s.pos = st :: rest) :
    advance 1 s = runStmt st { s with pos := rest } := advance_cons h 0

/-- A statement that drives `din` and `iin` with `clk = 0`, and the pulse after it: one clock cycle. -/
theorem cycle_run {s t : State} {n : Nat} (ha : t.answers = s.answers.drop n)
    (hd : t.draws = s.draws + (n - s.answers.length)) (st : Stmt) (rest : List Stmt) (a b : Bool)
    (hp : t.pos = st :: (pulse ++ rest))
    (hf : ∀ j, j < 3 → (answerAt s (n + j)).fails = false)
    (hst : runStmt st { t with pos := pulse ++ rest } = setLines .abort { t.out with din := a, iin := b, clk := false } { t with pos := pulse ++ rest }) :
    advance 3 t = { t with
      out := { t.out with din := a, iin := b, clk := false }, pos := rest, answers := s.answers.drop (n + 3)
      draws := s.draws + (n + 3 - s.answers.length), trace := t.trace ++ cycleEvents t.out a b } := by
  rw [show (3:Nat) = 2 + 1 from rfl, advance_cons hp, hst, setLines_run (s := s) (n := n) (t := { t with pos := pulse ++ rest }) ha hd (hf 0 (by omega))]
  simp only [pulse, List.cons_append, List.nil_append]
  rw [show (2:Nat) = 1 + 1 from rfl, advance_cons rfl]; simp only [runStmt]; rw [setLines_run (s := s) rfl rfl (hf 1 (by omega))]
  rw [show (1:Nat) = 0 + 1 from rfl, advance_cons rfl]; simp only [runStmt]; rw [setLines_run (s := s) rfl rfl (hf 2 (by omega))]
  simp [cycleEvents]

/-- One main cycle. -/
theorem mainCycle_run {s t : State} {n : Nat} (ha : t.answers = s.answers.drop n)
    (hd : t.draws = s.draws + (n - s.answers.length)) (k : Fin 8) (rest : List Stmt)
    (hp : t.pos = mainCycle k ++ rest)
    (hf : ∀ j, j < 4 → (answerAt s (n + j)).fails = false) :
    advance 4 t = { t with
      inLast := (answerAt s n).level, fcR := shiftIn t.fcR (answerAt s n).level, fcK := ⟨8 - k.val, by omega⟩
      out := { t.out with din := t.fcD.getLsbD k.val, iin := t.fcI.getLsbD k.val, clk := false }, pos := rest
      answers := s.answers.drop (n + 4), draws := s.draws + (n + 4 - s.answers.length)
      trace := t.trace ++ .read (some (answerAt s n).level) :: cycleEvents t.out (t.fcD.getLsbD k.val) (t.fcI.getLsbD k.val) } := by
  have hp' : t.pos = .sampleBit k :: (.driveBit k :: (pulse ++ rest)) := by rw [hp]; rfl
  have h1 := (advance_one hp').trans (sample_run (s := s) (n := n) (t := { t with pos := .driveBit k :: (pulse ++ rest) }) ha hd (hf 0 (by omega)) (takeBit k))
  have h3 := cycle_run (s := s) (n := n + 1) rfl rfl (.driveBit k) rest (t.fcD.getLsbD k.val) (t.fcI.getLsbD k.val) rfl (t := { t with
      inLast := (answerAt s n).level, fcR := shiftIn t.fcR (answerAt s n).level, fcK := ⟨8 - k.val, by omega⟩
      pos := .driveBit k :: (pulse ++ rest)
      answers := s.answers.drop (n + 1), draws := s.draws + (n + 1 - s.answers.length)
      trace := t.trace ++ [.read (some (answerAt s n).level)] })
      (fun j hj => by have := hf (1 + j) (by omega); rwa [show n + 1 + j = n + (1 + j) by omega]) rfl
  refine (advance_then h1 h3).trans ?_
  simp


/-- Four main cycles. -/
theorem fourCycles_run {s t : State} {n : Nat} (ha : t.answers = s.answers.drop n)
    (hd : t.draws = s.draws + (n - s.answers.length)) (k0 k1 k2 k3 : Fin 8) (rest : List Stmt)
    (hp : t.pos = mainCycle k0 ++ (mainCycle k1 ++ (mainCycle k2 ++ (mainCycle k3 ++ rest))))
    (hf : ∀ j, j < 16 → (answerAt s (n + j)).fails = false) :
    advance 16 t = { t with
      inLast := (answerAt s (n + 12)).level, fcK := ⟨8 - k3.val, by omega⟩
      fcR := shiftIn (shiftIn (shiftIn (shiftIn t.fcR (answerAt s n).level) (answerAt s (n + 4)).level)
        (answerAt s (n + 8)).level) (answerAt s (n + 12)).level
      out := { t.out with din := t.fcD.getLsbD k3.val, iin := t.fcI.getLsbD k3.val, clk := false }, pos := rest
      answers := s.answers.drop (n + 16), draws := s.draws + (n + 16 - s.answers.length)
      trace := t.trace ++
        (.read (some (answerAt s n).level) :: cycleEvents t.out (t.fcD.getLsbD k0.val) (t.fcI.getLsbD k0.val) ++
        .read (some (answerAt s (n + 4)).level) :: cycleEvents t.out (t.fcD.getLsbD k1.val) (t.fcI.getLsbD k1.val) ++
        .read (some (answerAt s (n + 8)).level) :: cycleEvents t.out (t.fcD.getLsbD k2.val) (t.fcI.getLsbD k2.val) ++
        .read (some (answerAt s (n + 12)).level) :: cycleEvents t.out (t.fcD.getLsbD k3.val) (t.fcI.getLsbD k3.val)) } := by
  have hfs : ∀ i, i + 4 ≤ 16 → ∀ j, j < 4 → (answerAt s (n + i + j)).fails = false := fun i hi j hj => by
    have := hf (i + j) (by omega); rwa [show n + i + j = n + (i + j) by omega]
  have m0 := mainCycle_run ha hd k0 _ hp (hfs 0 (by omega))
  have m1 := mainCycle_run (s := s) (n := n + 4) rfl rfl k1 _ rfl (hfs 4 (by omega)) |> advance_then m0
  have m2 := mainCycle_run (s := s) (n := n + 8) rfl rfl k2 _ rfl (hfs 8 (by omega)) |> advance_then m1
  have m3 := mainCycle_run (s := s) (n := n + 12) rfl rfl k3 _ rfl (hfs 12 (by omega)) |> advance_then m2
  refine m3.trans ?_
  simp [cycleEvents]

/-- Eight samples replace all eight bits of `FC_R` (rule R107). -/
theorem shiftIn_eight : ∀ b0 b1 b2 b3 b4 b5 b6 b7 : Bool,
    shiftIn (shiftIn (shiftIn (shiftIn (shiftIn (shiftIn (shiftIn (shiftIn 0 b0) b1) b2) b3) b4) b5) b6) b7 =
    BitVec.ofBool b0 ++ BitVec.ofBool b1 ++ BitVec.ofBool b2 ++ BitVec.ofBool b3 ++
    BitVec.ofBool b4 ++ BitVec.ofBool b5 ++ BitVec.ofBool b6 ++ BitVec.ofBool b7 := by decide

/-- The two trailing cycles and the return. -/
theorem frameTail_run {s t : State} {n : Nat} (ha : t.answers = s.answers.drop n)
    (hd : t.draws = s.draws + (n - s.answers.length)) (rest : List Stmt)
    (hp : t.pos = .cycleNo 9 :: .driveZero :: (pulse ++ .cycleNo 10 :: (pulse ++ .frameEnd :: rest)))
    (hf : ∀ j, j < 5 → (answerAt s (n + j)).fails = false) :
    advance 8 t = { t with
      fcK := 10, out := quiet t.out, pos := rest, result := t.fcR
      answers := s.answers.drop (n + 5), draws := s.draws + (n + 5 - s.answers.length)
      trace := t.trace ++ (cycleEvents t.out false false ++
        [.set { t.out with din := false, iin := false, clk := true } true,
         .set { t.out with din := false, iin := false, clk := false } true]) } := by
  have h0 := advance_one hp
  have h1 := cycle_run (s := s) (n := n) (t := { t with fcK := 9, pos := .driveZero :: (pulse ++ .cycleNo 10 :: (pulse ++ .frameEnd :: rest)) })
    ha hd .driveZero (.cycleNo 10 :: (pulse ++ .frameEnd :: rest)) false false rfl (fun j hj => hf j (by omega)) rfl
  have h2 := advance_then h0 h1
  refine (advance_then (m := 4) h2 rfl).trans ?_
  rw [show 4 = 3 + 1 from rfl, advance_cons rfl]; simp only [runStmt, pulse, List.cons_append, List.nil_append]
  rw [show (3:Nat) = 2 + 1 from rfl, advance_cons rfl]; simp only [runStmt]
  rw [setLines_run (s := s) (n := n + 3) rfl rfl (hf 3 (by omega))]
  rw [show (2:Nat) = 1 + 1 from rfl, advance_cons rfl]; simp only [runStmt]
  rw [setLines_run (s := s) (n := n + 4) rfl rfl (hf 4 (by omega))]
  rw [show (1:Nat) = 0 + 1 from rfl, advance_cons rfl, advance_zero]
  simp [runStmt, quiet]

/-- A frame that meets no failure (rule R105). -/
theorem frame_run {s : State} {rest : List Stmt} (d i : Byte)  (h : noFailure 40 s) :
    advance frameSteps { s with pos := .transfer d i :: rest } = { afterFrame d i s with pos := rest } := by
  have h0 := advance_one (s := { s with pos := .transfer d i :: rest }) rfl
  have h1 := cycle_run (s := s) (n := 0) (t := { s with fcD := d, fcI := i, fcR := 0, fcK := 0, pos := frameBody ++ rest })
    rfl (by simp) .driveZero (mainCycle 7 ++ (mainCycle 6 ++ (mainCycle 5 ++ (mainCycle 4 ++ (mainCycle 3 ++ (mainCycle 2 ++
      (mainCycle 1 ++ (mainCycle 0 ++ .cycleNo 9 :: .driveZero :: (pulse ++ .cycleNo 10 :: (pulse ++ .frameEnd :: rest))))))))))
    false false (by simp [frameBody]) (fun j hj => h _ (by omega)) rfl
  have h2 := fourCycles_run (s := s) (n := 3) rfl rfl 7 6 5 4 _ rfl (fun j hj => h _ (by omega)) |> advance_then (advance_then h0 h1)
  have h3 := fourCycles_run (s := s) (n := 19) rfl rfl 3 2 1 0 _ rfl (fun j hj => h _ (by omega)) |> advance_then h2
  have h4 := frameTail_run (s := s) (n := 35) rfl rfl rest rfl (fun j hj => h _ (by omega)) |> advance_then h3
  refine h4.trans ?_
  simp [afterFrame, drawn, quiet, byteAt, byteOfSamples, sampleAt, frameEvents, mainCycleEvents, cycleEvents]
  exact shiftIn_eight _ _ _ _ _ _ _ _
end Sys2Proof.Machine
end

