-- ==== Sys2Proof/Laws/PerInstr.lean ====
section
/-! SUPPORT. Statements about every instruction as syntax: its encoding has the width and the fixed bits of its row of
the opcode table. -/

namespace Sys2Proof.Laws

/-- The encoding of an instruction has the width and the fixed bits of its row of the opcode table. -/
def TableRow.Statement (i : Instr) : Prop :=
  (encode i).nbits = (opcodeRow i).nbits ∧ (opcodeRow i).fits (encode i).toNat = true

/-- The fixed bits of a FRAME word. -/
theorem TableRow.frame_word (d i : Byte) : commandWord 3 0 d i &&& 0xFF0000#24 = 0x300000#24 := by
  have h : ((((3#4 ++ 0#2) ++ 0#2) ++ d) ++ i) &&& ((((0xF#4 ++ 3#2) ++ 3#2) ++ 0#8) ++ 0#8) =
      (((0x3#4 ++ 0#2) ++ 0#2) ++ 0#8) ++ 0#8 := by
    rw [BitVec.and_append, BitVec.and_append]
    simp
  exact h

theorem TableRow.enter : TableRow.Statement .enter := ⟨rfl, by decide⟩

theorem TableRow.exit : TableRow.Statement .exit := ⟨rfl, by decide⟩

theorem TableRow.frame (d i : Byte) : TableRow.Statement (.frame d i) := by
  refine ⟨rfl, ?_⟩
  have h := congrArg BitVec.toNat (TableRow.frame_word d i)
  rw [BitVec.toNat_and] at h
  simpa [OpcodeRow.fits, opcodeRow, encode, Encoded.toNat] using h

theorem TableRow.rdfuseL : TableRow.Statement .rdfuseL := ⟨rfl, by decide⟩

theorem TableRow.rdfuseH : TableRow.Statement .rdfuseH := ⟨rfl, by decide⟩

theorem TableRow.rdfuseE : TableRow.Statement .rdfuseE := ⟨rfl, by decide⟩

theorem TableRow.rdsig0 : TableRow.Statement .rdsig0 := ⟨rfl, by decide⟩

theorem TableRow.rdsig1 : TableRow.Statement .rdsig1 := ⟨rfl, by decide⟩

theorem TableRow.rdsig2 : TableRow.Statement .rdsig2 := ⟨rfl, by decide⟩

theorem TableRow.wrfuseL (v : Byte) : TableRow.Statement (.wrfuseL v) :=
  ⟨rfl, by revert v; decide +kernel⟩

theorem TableRow.wrfuseH (v : Byte) : TableRow.Statement (.wrfuseH v) :=
  ⟨rfl, by revert v; decide +kernel⟩

theorem TableRow.wrfuseE (v : Byte) : TableRow.Statement (.wrfuseE v) :=
  ⟨rfl, by revert v; decide +kernel⟩

theorem TableRow.ident : TableRow.Statement .ident := ⟨rfl, by decide⟩

theorem TableRow.readall : TableRow.Statement .readall := ⟨rfl, by decide⟩

theorem TableRow.restore : TableRow.Statement .restore := ⟨rfl, by decide⟩

theorem TableRow.enterFuseRead : TableRow.Statement .enterFuseRead := ⟨rfl, by decide⟩

theorem TableRow.enterSigRead : TableRow.Statement .enterSigRead := ⟨rfl, by decide⟩

theorem TableRow.enterFuseWrite : TableRow.Statement .enterFuseWrite := ⟨rfl, by decide⟩

theorem TableRow.loadData (v : Byte) : TableRow.Statement (.loadData v) :=
  ⟨rfl, by revert v; decide +kernel⟩

theorem TableRow.sigSelect0 : TableRow.Statement .sigSelect0 := ⟨rfl, by decide⟩

theorem TableRow.sigSelect1 : TableRow.Statement .sigSelect1 := ⟨rfl, by decide⟩

theorem TableRow.sigSelect2 : TableRow.Statement .sigSelect2 := ⟨rfl, by decide⟩

theorem TableRow.sigShiftA : TableRow.Statement .sigShiftA := ⟨rfl, by decide⟩

theorem TableRow.sigShiftB : TableRow.Statement .sigShiftB := ⟨rfl, by decide⟩

theorem TableRow.fuseSelectL : TableRow.Statement .fuseSelectL := ⟨rfl, by decide⟩

theorem TableRow.fuseShiftL : TableRow.Statement .fuseShiftL := ⟨rfl, by decide⟩

theorem TableRow.fuseSelectH : TableRow.Statement .fuseSelectH := ⟨rfl, by decide⟩

theorem TableRow.fuseShiftH : TableRow.Statement .fuseShiftH := ⟨rfl, by decide⟩

theorem TableRow.fuseSelectE : TableRow.Statement .fuseSelectE := ⟨rfl, by decide⟩

theorem TableRow.fuseShiftE : TableRow.Statement .fuseShiftE := ⟨rfl, by decide⟩

theorem TableRow.writeStrobeAL : TableRow.Statement .writeStrobeAL := ⟨rfl, by decide⟩

theorem TableRow.writeStrobeBL : TableRow.Statement .writeStrobeBL := ⟨rfl, by decide⟩

theorem TableRow.writeStrobeAH : TableRow.Statement .writeStrobeAH := ⟨rfl, by decide⟩

theorem TableRow.writeStrobeBH : TableRow.Statement .writeStrobeBH := ⟨rfl, by decide⟩

theorem TableRow.writeStrobeAE : TableRow.Statement .writeStrobeAE := ⟨rfl, by decide⟩

theorem TableRow.writeStrobeBE : TableRow.Statement .writeStrobeBE := ⟨rfl, by decide⟩

theorem TableRow.writeEnd : TableRow.Statement .writeEnd := ⟨rfl, by decide⟩

end Sys2Proof.Laws
end

