-- ==== Sys2Proof/Laws/Run.lean ====
section
/-! SUPPORT. What the procedures do, once each: frames one after another, the reads, a completion poll and a write,
as the number of sequencer steps they take and the state they leave. -/

namespace Sys2Proof.Machine

/-! ## Frames one after another -/

/-- A frame constant that meets no failure. -/
theorem send_run {s : State} {rest : List Stmt} (f : FrameName) (h : noFailure 40 s) :
    advance frameSteps { s with pos := .send f :: rest } =
      { afterFrame (frameBytes f).1 (frameBytes f).2 s with pos := rest } :=
  frame_run (frameBytes f).1 (frameBytes f).2 h

/-- A state whose answers are the later ones of another meets the later ones' failures only. -/
theorem noFailure_shift {m n k : Nat} {s t : State} (ht : ∀ j, answerAt t j = answerAt s (m + j)) (h : noFailure n s)
    (hk : m + k ≤ n) : noFailure k t := fun j hj => by rw [ht]; exact h _ (by omega)

/-- The answers to come after a frame. -/
@[simp] theorem answerAt_afterFrame (d i : Byte) (s : State) (k : Nat) :
    answerAt (afterFrame d i s) k = answerAt s (40 + k) := answerAt_drawn 40 k s

/-- The answers to come after frames. -/
theorem answerAt_afterFrames (fs : List (Byte × Byte)) (s : State) (k : Nat) :
    answerAt (afterFrames fs s) k = answerAt s (40 * fs.length + k) := by
  induction fs generalizing s with
  | nil => simp [afterFrames]
  | cons f fs ih => simp only [afterFrames, ih, answerAt_afterFrame, List.length_cons]; congr 1; omega

/-- The byte a frame returns depends on the answers alone. -/
theorem byteAt_shift {m : Nat} {s t : State} (ht : ∀ j, answerAt t j = answerAt s (m + j)) (n : Nat) :
    byteAt t n = byteAt s (m + n) := by
  simp only [byteAt, byteOfSamples, sampleAt, ht, Nat.add_assoc]

/-- The byte `FC_R` holds after frames is the last one's. -/
theorem afterFrames_fcR (fs : List (Byte × Byte)) (f : Byte × Byte) (s : State) :
    (afterFrames (fs ++ [f]) s).fcR = byteAt s (40 * fs.length) := by
  induction fs generalizing s with
  | nil => rfl
  | cons g fs ih =>
    rw [List.cons_append, afterFrames, ih, byteAt_shift (answerAt_afterFrame g.1 g.2 s), List.length_cons]
    congr 1; omega

/-- Frames sent one after another are frames sent one after another. -/
theorem afterFrames_append (fs gs : List (Byte × Byte)) (s : State) :
    afterFrames (fs ++ gs) s = afterFrames gs (afterFrames fs s) := by
  induction fs generalizing s with
  | nil => rfl
  | cons f fs ih => exact ih (afterFrame f.1 f.2 s)

/-- The answers to come for a state that frames led to. -/
theorem answerAt_after (fs : List (Byte × Byte)) {s t : State} (ha : t.answers = (afterFrames fs s).answers)
    (hd : t.draws = (afterFrames fs s).draws) (k : Nat) : answerAt t k = answerAt s (40 * fs.length + k) :=
  (answerAt_congr ha hd k).trans (answerAt_afterFrames fs s k)

/-- The failures to come for a state that frames led to. -/
theorem noFailure_after (fs : List (Byte × Byte)) {s t : State} {n m : Nat}
    (ha : t.answers = (afterFrames fs s).answers) (hd : t.draws = (afterFrames fs s).draws) (h : noFailure n s)
    (hm : 40 * fs.length + m ≤ n) : noFailure m t :=
  noFailure_shift (answerAt_after fs ha hd) h hm

/-- The byte a frame is going to return for a state that frames led to. -/
theorem byteAt_after (fs : List (Byte × Byte)) {s t : State} (ha : t.answers = (afterFrames fs s).answers)
    (hd : t.draws = (afterFrames fs s).draws) (n : Nat) : byteAt t n = byteAt s (40 * fs.length + n) :=
  byteAt_shift (answerAt_after fs ha hd) n

/-- Frames read and write no register but those of the pins and of the codec: any other may be set before or after. -/
theorem afterFrames_with (fs : List (Byte × Byte)) (s : State) (t : Bool) (g : Signature) (c d v : FuseSet)
    (m : MatchReg) (w : WroutReg) (p : List Stmt) :
    afterFrames fs { s with timedOut := t, sig := g, cur := c, dflt := d, ver := v, ident := m, wrout := w, pos := p } =
      { afterFrames fs s with
        timedOut := t, sig := g, cur := c, dflt := d, ver := v, ident := m, wrout := w, pos := p } := by
  induction fs generalizing s with
  | nil => rfl
  | cons f fs ih => exact ih (afterFrame f.1 f.2 s)

/-- What frames leave alone. -/
theorem afterFrames_keeps (fs : List (Byte × Byte)) (s : State) :
    afterFrames fs s = { afterFrames fs s with
      dir := s.dir, phase := s.phase, busy := s.busy, err := s.err, cmdw := s.cmdw, pos := s.pos
      timedOut := s.timedOut, pollN := s.pollN, sig := s.sig, cur := s.cur, dflt := s.dflt, ver := s.ver
      ident := s.ident, wrout := s.wrout, setup := s.setup, turns := s.turns, grant := s.grant, seen := s.seen } := by
  induction fs generalizing s with
  | nil => rfl
  | cons f fs ih => exact ih (afterFrame f.1 f.2 s)

section
variable (fs : List (Byte × Byte)) (s : State)

@[simp] theorem afterFrames_dir : (afterFrames fs s).dir = s.dir := by rw [afterFrames_keeps]
@[simp] theorem afterFrames_phase : (afterFrames fs s).phase = s.phase := by rw [afterFrames_keeps]
@[simp] theorem afterFrames_busy : (afterFrames fs s).busy = s.busy := by rw [afterFrames_keeps]
@[simp] theorem afterFrames_err : (afterFrames fs s).err = s.err := by rw [afterFrames_keeps]
@[simp] theorem afterFrames_cmdw : (afterFrames fs s).cmdw = s.cmdw := by rw [afterFrames_keeps]
@[simp] theorem afterFrames_pos : (afterFrames fs s).pos = s.pos := by rw [afterFrames_keeps]
@[simp] theorem afterFrames_timedOut : (afterFrames fs s).timedOut = s.timedOut := by rw [afterFrames_keeps]
@[simp] theorem afterFrames_pollN : (afterFrames fs s).pollN = s.pollN := by rw [afterFrames_keeps]
@[simp] theorem afterFrames_sig : (afterFrames fs s).sig = s.sig := by rw [afterFrames_keeps]
@[simp] theorem afterFrames_cur : (afterFrames fs s).cur = s.cur := by rw [afterFrames_keeps]
@[simp] theorem afterFrames_dflt : (afterFrames fs s).dflt = s.dflt := by rw [afterFrames_keeps]
@[simp] theorem afterFrames_ver : (afterFrames fs s).ver = s.ver := by rw [afterFrames_keeps]
@[simp] theorem afterFrames_ident : (afterFrames fs s).ident = s.ident := by rw [afterFrames_keeps]
@[simp] theorem afterFrames_wrout : (afterFrames fs s).wrout = s.wrout := by rw [afterFrames_keeps]
@[simp] theorem afterFrames_setup : (afterFrames fs s).setup = s.setup := by rw [afterFrames_keeps]
@[simp] theorem afterFrames_turns : (afterFrames fs s).turns = s.turns := by rw [afterFrames_keeps]
@[simp] theorem afterFrames_grant : (afterFrames fs s).grant = s.grant := by rw [afterFrames_keeps]
@[simp] theorem afterFrames_seen : (afterFrames fs s).seen = s.seen := by rw [afterFrames_keeps]

end

/-- The byte `RESULT` holds after frames is the last one's. -/
theorem afterFrames_result (fs : List (Byte × Byte)) (f : Byte × Byte) (s : State) :
    (afterFrames (fs ++ [f]) s).result = byteAt s (40 * fs.length) := by
  induction fs generalizing s with
  | nil => rfl
  | cons g fs ih =>
    rw [List.cons_append, afterFrames, ih, byteAt_shift (answerAt_afterFrame g.1 g.2 s), List.length_cons]
    congr 1; omega

/-- The lines after frames. -/
theorem afterFrames_out (f : Byte × Byte) (fs : List (Byte × Byte)) (s : State) :
    (afterFrames (f :: fs) s).out = quiet s.out := by
  induction fs generalizing s f with
  | nil => rfl
  | cons g fs ih => rw [afterFrames, ih]; rfl

/-- Frames issue forty events each. -/
theorem afterFrames_trace (fs : List (Byte × Byte)) (s : State) :
    ∃ es, (afterFrames fs s).trace = s.trace ++ es ∧ es.length = 40 * fs.length := by
  induction fs generalizing s with
  | nil => exact ⟨[], by simp [afterFrames], rfl⟩
  | cons f fs ih =>
    obtain ⟨es, h1, h2⟩ := ih (afterFrame f.1 f.2 s)
    have h4 : (afterFrame f.1 f.2 s).trace = s.trace ++ frameEvents s.out f.1 f.2 (sampleAt s 0) := rfl
    refine ⟨frameEvents s.out f.1 f.2 (sampleAt s 0) ++ es, by simp [afterFrames, h1, h4], ?_⟩
    have h3 : (frameEvents s.out f.1 f.2 (sampleAt s 0)).length = 40 := rfl
    simp [h2, h3]; omega

/-- The frame constants sent one after another. -/
theorem sends_run (fs : List FrameName) {s : State} {rest : List Stmt} (h : noFailure (40 * fs.length) s) :
    advance (frameSteps * fs.length) { s with pos := fs.map .send ++ rest } =
      { afterFrames (fs.map frameBytes) s with pos := rest } := by
  induction fs generalizing s with
  | nil => rfl
  | cons f fs ih =>
    have h1 := send_run (rest := fs.map .send ++ rest) f (s := s) (fun k hk => h k (by simp; omega))
    have h2 := ih (s := afterFrame (frameBytes f).1 (frameBytes f).2 s) (fun k hk => by
      rw [answerAt_afterFrame]; exact h _ (by simp; omega))
    have := advance_then h1 h2
    simpa [afterFrames, Nat.mul_add, Nat.add_comm] using this

/-! ## Reads -/

/-- `ReadFuse(s)` that meets no failure. -/
theorem readFuse_run {s : State} {rest : List Stmt} (f : Fuse) (h : noFailure 120 s) :
    advance (1 + 3 * frameSteps) { s with pos := .readFuse f :: rest } =
      { afterFrames (readFuseFrames f) s with pos := rest } := by
  have h0 := advance_one (s := { s with pos := .readFuse f :: rest }) rfl
  have h1 := sends_run [.enterFuseRead, .fuseSelect f, .fuseShift f] (s := s) (rest := rest) h
  refine (advance_then h0 h1).trans ?_
  cases f <;> rfl

/-- `ReadSig(j)` that meets no failure. -/
theorem readSig_run {s : State} {rest : List Stmt} (j : SigIndex) (h : noFailure 160 s) :
    advance (1 + 4 * frameSteps) { s with pos := .readSig j :: rest } =
      { afterFrames (readSigFrames j) s with pos := rest } := by
  have h0 := advance_one (s := { s with pos := .readSig j :: rest }) rfl
  have h1 := sends_run [.enterSigRead, .sigSelect j, .sigShiftA, .sigShiftB] (s := s) (rest := rest) h
  exact advance_then h0 h1

/-! ## Polls -/

/-- A poll's low samples after each of which it goes on. -/
theorem pollWait_run {s : State} {rest : List Stmt} (k : Nat) (hl : ∀ j, j < k → pollLow s j) (hg : pollMayGoOn s k) :
    advance (pollStride s * k) { s with pollN := 0, pos := .poll :: rest } =
      { drawn (pollStride s * k) s with
        pollN := k, inLast := if k = 0 then s.inLast else false, pos := .poll :: rest
        trace := s.trace ++ pollWait s k } := by
  induction k with
  | zero => simp [pollWait, drawn]
  | succ k ih =>
    have ih := ih (fun j hj => hl j (by omega)) (fun l h => by have := hg l h; omega)
    obtain ⟨hf, hv⟩ := hl k (by omega)
    rw [Nat.mul_succ]
    refine (advance_then ih (rfl : advance (pollStride s) _ = _)).trans ?_
    have hlim : pollLimitReached s.setup.params.pollLimit (k + 1) = false := by
      cases hp : s.setup.params.pollLimit with
      | none => rfl
      | some l => have := hg l hp; simp [pollLimitReached]; omega
    by_cases hi : 0 < s.setup.params.pollIntervalUs
    · have hs : pollStride s = 2 := by simp [pollStride, hi]
      rw [hs] at hf hv ⊢
      rw [show (2:Nat) = 1 + 1 from rfl, advance_cons rfl]
      simp only [runStmt]
      rw [sample_run (s := s) (n := (1 + 1) * k) rfl rfl hf]
      simp only [hv, pollSample, Bool.false_eq_true, if_false]
      simp only [drawn, hlim, Bool.false_eq_true, if_false, pollAgain, hi, if_true, List.cons_append, List.nil_append]
      rw [show (1:Nat) = 0 + 1 from rfl, advance_cons rfl, advance_zero]
      simp only [runStmt]
      rw [delayFor_run (s := s) (n := (1 + 1) * k + 1) rfl rfl]
      simp [pollWait, pollLowEvents, hi, Nat.add_assoc]
    · have hs : pollStride s = 1 := by simp [pollStride, hi]
      rw [hs] at hf hv ⊢
      rw [advance_one rfl]
      simp only [runStmt]
      rw [sample_run (s := s) (n := 1 * k) rfl rfl hf]
      simp only [hv, pollSample, Bool.false_eq_true, if_false]
      simp only [drawn, hlim, Bool.false_eq_true, if_false, pollAgain, hi, List.cons_append, List.nil_append]
      simp [pollWait, pollLowEvents, hi]

/-- The events of a poll's wait depend on the answers and the parameters only. -/
theorem pollWait_congr {s t : State} (ha : t.answers = s.answers) (hd : t.draws = s.draws) (hs : t.setup = s.setup) (k : Nat) :
    pollWait t k = pollWait s k := by
  induction k with
  | zero => rfl
  | succ k ih => simp only [pollWait, ih, pollLowEvents, hs, answerAt_congr ha hd]

/-- The statements that remain after a poll. -/
def posAfterPoll (r : PollRun) (rest : List Stmt) : List Stmt :=
  match r with
  | .ready _ => rest
  | .timeout _ => timeoutExit rest

/-- A poll. -/
theorem poll_run {s : State} {rest : List Stmt} (r : PollRun) (h : pollRuns r s) :
    advance (pollSteps r s) { s with pos := .pollStart :: .poll :: rest } =
      { afterPoll r s with pos := posAfterPoll r rest } := by
  have h0 := advance_one (s := { s with pos := .pollStart :: .poll :: rest }) rfl
  cases r with
  | ready k =>
    obtain ⟨hl, ⟨hf, hv⟩, hg⟩ := h
    have h1 := advance_then h0 (pollWait_run (rest := rest) k hl hg)
    rw [show pollSteps (.ready k) s = 1 + pollStride s * k + 1 by simp [pollSteps]; omega]
    refine (advance_then h1 (advance_one rfl)).trans ?_
    simp only [runStmt]
    rw [sample_run (s := s) (n := pollStride s * k) rfl rfl hf]
    simp [hv, pollSample, afterPoll, drawn]
    exact ⟨rfl, pollWait_congr (s := s) (t := { s with pos := .poll :: rest }) rfl rfl rfl k⟩
  | timeout k =>
    obtain ⟨hl, hlim⟩ := h
    obtain ⟨hf, hv⟩ := hl k (by omega)
    have h1 := advance_then h0 (pollWait_run (rest := rest) k (fun j hj => hl j (by omega)) (fun l h => by simp_all; omega))
    rw [show pollSteps (.timeout k) s = 1 + pollStride s * k + 1 by simp [pollSteps]; omega]
    refine (advance_then h1 (advance_one rfl)).trans ?_
    simp only [runStmt]
    rw [sample_run (s := s) (n := pollStride s * k) rfl rfl hf]
    simp [hv, pollSample, hlim, pollLimitReached, afterPoll, drawn]
    exact ⟨rfl, pollWait_congr (s := s) (t := { s with pos := .poll :: rest }) rfl rfl rfl k⟩

/-- What a poll leaves alone. -/
theorem afterPoll_keeps (r : PollRun) (s : State) :
    afterPoll r s = { afterPoll r s with
      out := s.out, dir := s.dir, phase := s.phase, busy := s.busy, err := s.err, cmdw := s.cmdw, pos := s.pos
      result := s.result, timedOut := s.timedOut, sig := s.sig, cur := s.cur, dflt := s.dflt, ver := s.ver
      ident := s.ident, wrout := s.wrout, setup := s.setup, turns := s.turns, grant := s.grant, seen := s.seen } := by
  cases r <;> rfl

/-! ## Writes -/

/-- The steps of a write with two polls. -/
theorem writeSteps_two {f : Fuse} {v : Byte} {w : WriteRun} {s : State} {r : PollRun} (h : secondPoll w = some r) :
    writeSteps f v w s = 2 + 4 * frameSteps + pollSteps (firstPoll w) (afterFrames (writeFuseFrames f v) s) +
      (frameSteps + pollSteps r (afterFrame 0x00#8 0x4C#8 (afterFirstPoll f v w s))) := by
  simp only [writeSteps, h]

/-- A statement that calls `WriteFuse(s, v)`. -/
theorem writeFuse_run {s : State} {st : Stmt} {rest : List Stmt} (f : Fuse) (v : Byte) (w : WriteRun)
    (hst : runStmt st { s with pos := rest } = call (writeFuseBody f v) { s with pos := rest })
    (h : writeRuns f v w s) :
    advance (writeSteps f v w s) { s with pos := st :: rest } = { afterWrite f v w s with pos := rest } := by
  obtain ⟨hf, hp1, h2⟩ := h
  have h0 := (advance_one (s := { s with pos := st :: rest }) rfl).trans hst
  have h1 := sends_run [.enterFuseWrite, .loadData v, .writeStrobeA f, .writeStrobeB f] (s := s)
    (rest := pollBody ++ ([.send .writeEnd] ++ (pollBody ++ (.wrote f .done :: rest)))) hf
  have hbytes : [.enterFuseWrite, .loadData v, .writeStrobeA f, .writeStrobeB f].map frameBytes = writeFuseFrames f v := by
    cases f <;> rfl
  rw [hbytes] at h1
  have h01 := advance_then h0 (show advance _ _ = _ from h1)
  have hpoll := poll_run (rest := [.send .writeEnd] ++ (pollBody ++ (.wrote f .done :: rest))) (firstPoll w) hp1
  have h02 := advance_then h01 hpoll
  cases w with
  | firstTimeout k =>
    have h5 := advance_then h02 (advance_one (st := .wrote f .timeout) (rest := rest) rfl)
    rw [show writeSteps f v (.firstTimeout k) s = 1 + frameSteps * 4 +
      pollSteps (firstPoll (.firstTimeout k)) (afterFrames (writeFuseFrames f v) s) + 1 by
        simp [writeSteps, secondPoll]; omega]
    exact h5
  | secondTimeout k1 k2 =>
    obtain ⟨hf2, hp2⟩ := h2
    have h3 := advance_then h02 (send_run (rest := pollBody ++ (.wrote f .done :: rest)) .writeEnd hf2)
    have h4 := advance_then h3 (poll_run (rest := .wrote f .done :: rest) _ hp2)
    have h5 := advance_then h4 (advance_one (st := .wrote f .timeout) (rest := rest) rfl)
    rw [show writeSteps f v (.secondTimeout k1 k2) s = 1 + frameSteps * 4 +
      pollSteps (firstPoll (.secondTimeout k1 k2)) (afterFrames (writeFuseFrames f v) s) + frameSteps +
      pollSteps (.timeout k2) (afterFrame 0x00#8 0x4C#8 (afterFirstPoll f v (.secondTimeout k1 k2) s)) + 1 by
        rw [writeSteps_two (w := .secondTimeout k1 k2) rfl]; omega]
    exact h5
  | done k1 k2 =>
    obtain ⟨hf2, hp2⟩ := h2
    have h3 := advance_then h02 (send_run (rest := pollBody ++ (.wrote f .done :: rest)) .writeEnd hf2)
    have h4 := advance_then h3 (poll_run (rest := .wrote f .done :: rest) _ hp2)
    have h5 := advance_then h4 (advance_one (st := .wrote f .done) (rest := rest) rfl)
    rw [show writeSteps f v (.done k1 k2) s = 1 + frameSteps * 4 +
      pollSteps (firstPoll (.done k1 k2)) (afterFrames (writeFuseFrames f v) s) + frameSteps +
      pollSteps (.ready k2) (afterFrame 0x00#8 0x4C#8 (afterFirstPoll f v (.done k1 k2) s)) + 1 by
        rw [writeSteps_two (w := .done k1 k2) rfl]; omega]
    exact h5

/-- What a write leaves in the registers it does not read from the transport. -/
theorem afterWrite_registers (f : Fuse) (v : Byte) (w : WriteRun) (u : State) :
    let t := afterWrite f v w u
    t.wrout = wroutSet u.wrout f (writeOutcome w) ∧ t.timedOut = (u.timedOut || writeOutcome w == .timeout) ∧
    t.out = quiet u.out ∧ t.dir = u.dir ∧ t.phase = u.phase ∧ t.cur = u.cur ∧ t.ver = u.ver ∧ t.sig = u.sig ∧
    t.dflt = u.dflt ∧ t.ident = u.ident ∧ t.pos = u.pos ∧ t.setup = u.setup := by
  have hq : ∀ l, quiet (quiet l) = quiet l := fun _ => rfl
  have hout : (afterFrames (writeFuseFrames f v) u).out = quiet u.out := by cases f <;> rfl
  simp only [afterWrite]
  cases w <;> simp only [secondPoll, afterFirstPoll] <;> simp <;> (try rw [afterPoll_keeps]) <;>
    simp [afterFrame] <;> (try rw [afterPoll_keeps]) <;> simp [hout, hq]

end Sys2Proof.Machine
end

