-- ==== Sys2Proof/Laws/Plan.lean ====
section
/-! SUPPORT. What the parts of READALL and RESTORE do, once each: reading the signature, the current FuseSet and the
verify's FuseSet, and the matcher's write. -/

namespace Sys2Proof.Machine

/-! ## States whose answers are the later ones of another -/

/-- `s` and `t` differ by `m` answers taken: the answers of `t` are the later ones of `s`. -/
theorem answerAt_afterSignature (s : State) (k : Nat) : answerAt (afterSignature s) k = answerAt s (480 + k) :=
  answerAt_afterFrames (readSigFrames 0 ++ readSigFrames 1 ++ readSigFrames 2) s k

theorem answerAt_afterCurrent (s : State) (k : Nat) : answerAt (afterCurrent s) k = answerAt s (360 + k) :=
  answerAt_afterFrames (readFuseFrames .low ++ readFuseFrames .high ++ readFuseFrames .ext) s k

theorem answerAt_afterSurvey (s : State) (k : Nat) : answerAt (afterSurvey s) k = answerAt s (840 + k) := by
  unfold afterSurvey
  rw [answerAt_afterCurrent]
  refine (answerAt_congr (s := afterSignature s) ?_ ?_ _).trans ?_
  · rfl
  · rfl
  · rw [answerAt_afterSignature]; congr 1; omega

/-! ## One read with the register it goes to, after frames -/

/-- A signature byte read, with its register. -/
theorem readSigStore_run {s : State} {rest : List Stmt} {n : Nat} (fs : List (Byte × Byte)) (j : SigIndex)
    (g : Signature) (h : noFailure n s) (hn : 40 * fs.length + 160 ≤ n) :
    advance 178 { afterFrames fs s with sig := g, pos := .readSig j :: .storeSig j :: rest } =
      { afterFrames (fs ++ readSigFrames j) s with
        sig := sigSet g j (byteAt s (40 * fs.length + 120)), pos := rest } := by
  have h0 : noFailure 160 { afterFrames fs s with sig := g } := noFailure_after fs rfl rfl h hn
  have h1 := readSig_run (s := { afterFrames fs s with sig := g }) (rest := .storeSig j :: rest) j h0
  have h2 := advance_then h1 (advance_one (st := .storeSig j) (rest := rest) rfl)
  refine h2.trans ?_
  have hr : (afterFrames (fs ++ readSigFrames j) s).fcR = byteAt s (40 * fs.length + 120) := by
    rw [afterFrames_append]
    exact (afterFrames_fcR [(0x08#8, 0x4C#8), (BitVec.ofNat 8 j.val, 0x0C#8), (0x00#8, 0x68#8)] (0x00#8, 0x6C#8) _).trans
      (byteAt_after fs rfl rfl 120)
  have hw := afterFrames_with (readSigFrames j) (afterFrames fs s) (afterFrames fs s).timedOut g (afterFrames fs s).cur
    (afterFrames fs s).dflt (afterFrames fs s).ver (afterFrames fs s).ident (afterFrames fs s).wrout
    (afterFrames fs s).pos
  rw [hw, ← afterFrames_append]
  simp [runStmt, hr]

/-- A fuse byte read, with the register of CUR it goes to. -/
theorem readCur_run {s : State} {rest : List Stmt} {n : Nat} (fs : List (Byte × Byte)) (f : Fuse)
    (g : FuseSet) (h : noFailure n s) (hn : 40 * fs.length + 120 ≤ n) :
    advance 134 { afterFrames fs s with cur := g, pos := .readFuse f :: .storeCur f :: rest } =
      { afterFrames (fs ++ readFuseFrames f) s with
        cur := fuseSet g f (byteAt s (40 * fs.length + 80)), pos := rest } := by
  have h0 : noFailure 120 { afterFrames fs s with cur := g } := noFailure_after fs rfl rfl h hn
  have h1 := readFuse_run (s := { afterFrames fs s with cur := g }) (rest := .storeCur f :: rest) f h0
  have h2 := advance_then h1 (advance_one (st := .storeCur f) (rest := rest) rfl)
  refine h2.trans ?_
  have hr : (afterFrames (fs ++ readFuseFrames f) s).fcR = byteAt s (40 * fs.length + 80) := by
    rw [afterFrames_append, ← byteAt_after fs rfl rfl]
    cases f <;> exact afterFrames_fcR [_, _] _ _
  have hw := afterFrames_with (readFuseFrames f) (afterFrames fs s) (afterFrames fs s).timedOut (afterFrames fs s).sig
    g (afterFrames fs s).dflt (afterFrames fs s).ver (afterFrames fs s).ident
    (afterFrames fs s).wrout (afterFrames fs s).pos
  rw [hw, ← afterFrames_append]
  simp [runStmt, hr]

/-- A fuse byte read, with the register of VER it goes to. -/
theorem readVer_run {s : State} {rest : List Stmt} {n : Nat} (fs : List (Byte × Byte)) (f : Fuse)
    (g : FuseSet) (h : noFailure n s) (hn : 40 * fs.length + 120 ≤ n) :
    advance 134 { afterFrames fs s with ver := g, pos := .readFuse f :: .storeVer f :: rest } =
      { afterFrames (fs ++ readFuseFrames f) s with
        ver := fuseSet g f (byteAt s (40 * fs.length + 80)), pos := rest } := by
  have h0 : noFailure 120 { afterFrames fs s with ver := g } := noFailure_after fs rfl rfl h hn
  have h1 := readFuse_run (s := { afterFrames fs s with ver := g }) (rest := .storeVer f :: rest) f h0
  have h2 := advance_then h1 (advance_one (st := .storeVer f) (rest := rest) rfl)
  refine h2.trans ?_
  have hr : (afterFrames (fs ++ readFuseFrames f) s).fcR = byteAt s (40 * fs.length + 80) := by
    rw [afterFrames_append, ← byteAt_after fs rfl rfl]
    cases f <;> exact afterFrames_fcR [_, _] _ _
  have hw := afterFrames_with (readFuseFrames f) (afterFrames fs s) (afterFrames fs s).timedOut (afterFrames fs s).sig
    (afterFrames fs s).cur (afterFrames fs s).dflt g (afterFrames fs s).ident
    (afterFrames fs s).wrout (afterFrames fs s).pos
  rw [hw, ← afterFrames_append]
  simp [runStmt, hr]

/-! ## The parts of the plans -/

/-- The signature read. -/
theorem signature_run {s : State} {rest : List Stmt} (h : noFailure 480 s) :
    advance 534 { s with pos := readSignature ++ rest } = { afterSignature s with pos := rest } := by
  have h1 := readSigStore_run (rest := .readSig 1 :: .storeSig 1 :: .readSig 2 :: .storeSig 2 :: rest)
    [] 0 s.sig h (by decide)
  have h2 := advance_then h1 (readSigStore_run (rest := .readSig 2 :: .storeSig 2 :: rest) (readSigFrames 0) 1 _ h
    (by decide))
  exact advance_then h2 (readSigStore_run (rest := rest) (readSigFrames 0 ++ readSigFrames 1) 2 _ h (by decide))

/-- The current FuseSet read. -/
theorem current_run {s : State} {rest : List Stmt} (h : noFailure 360 s) :
    advance 402 { s with pos := readCurrent ++ rest } = { afterCurrent s with pos := rest } := by
  have h1 := readCur_run (rest := .readFuse .high :: .storeCur .high :: .readFuse .ext :: .storeCur .ext :: rest)
    [] .low s.cur h (by decide)
  have h2 := advance_then h1 (readCur_run (rest := .readFuse .ext :: .storeCur .ext :: rest)
    (readFuseFrames .low) .high _ h (by decide))
  exact advance_then h2 (readCur_run (rest := rest) (readFuseFrames .low ++ readFuseFrames .high) .ext _ h (by decide))

/-- The matcher's write of MATCH, as the value it leaves. -/
theorem identifyMatch_eq (s : State) : identifyMatch s = { s with ident := matchOf (catalogOf s) s.sig } := by
  unfold identifyMatch matchOf
  cases identify (catalogOf s) s.sig <;> rfl

/-- The matcher's write of one byte of DEF, as the value it leaves. -/
theorem identifyDef_eq (f : Fuse) (s : State) :
    identifyDef f s = { s with dflt := fuseSet s.dflt f (fuseGet (defaultsOf (catalogOf s) s.sig) f) } := by
  unfold identifyDef defaultsOf
  cases identify (catalogOf s) s.sig <;> cases f <;> rfl

/-- `ApplyIdentify()`, as the register values it leaves. -/
theorem applyIdentify_run (s : State) (rest : List Stmt) :
    advance 5 { s with pos := .applyIdentify :: rest } =
      { s with ident := matchOf (catalogOf s) s.sig, dflt := defaultsOf (catalogOf s) s.sig, pos := rest } := by
  have h1 := advance_one (s := { s with pos := .applyIdentify :: rest }) rfl
  have h2 := advance_then h1 ((advance_one (st := .identifyMatch) rfl).trans (identifyMatch_eq _))
  have h3 := advance_then h2 ((advance_one (st := .identifyDef .low) rfl).trans (identifyDef_eq _ _))
  have h4 := advance_then h3 ((advance_one (st := .identifyDef .high) rfl).trans (identifyDef_eq _ _))
  exact advance_then h4 ((advance_one (st := .identifyDef .ext) (rest := rest) rfl).trans (identifyDef_eq _ _))

/-- The clearing at the start of RESTORE. -/
theorem clearPlan_run (s : State) (rest : List Stmt) :
    advance 8 { s with pos := clearPlan ++ rest } = { afterClear s with pos := rest } := by
  simp [clearPlan, advance, runStmt, fuseSet, afterClear]

/-- The common part of READALL and RESTORE. -/
theorem survey_run {s : State} {rest : List Stmt} (h : noFailure 840 s) :
    advance 941 { s with pos := readSignature ++ .applyIdentify :: (readCurrent ++ rest) } =
      { afterSurvey s with pos := rest } := by
  have h1 := signature_run (s := s) (rest := .applyIdentify :: (readCurrent ++ rest)) (fun k hk => h k (by omega))
  have hn : noFailure 360 (afterSignature s) := noFailure_shift (answerAt_afterSignature s) h (by decide)
  unfold afterSurvey
  generalize afterSignature s = t at h1 hn ⊢
  have h2 := advance_then h1 (applyIdentify_run t (readCurrent ++ rest))
  exact advance_then h2 (current_run (rest := rest)
    (s := { t with ident := matchOf (catalogOf t) t.sig, dflt := defaultsOf (catalogOf t) t.sig }) hn)

/-- The verify compares the two FuseSets. -/
theorem verifyFuses_eq (s : State) :
    verifyFuses s = { s with
      wrout := { s.wrout with verify := if s.ver = s.dflt then .matched else .mismatch } } := by
  have h : (s.ver.low = s.dflt.low ∧ s.ver.high = s.dflt.high ∧ s.ver.ext = s.dflt.ext) ↔ s.ver = s.dflt := by
    cases s.ver; cases s.dflt; simp
  simp only [verifyFuses, h]

/-- The verify's FuseSet read, and the verify. -/
theorem verify_run {s : State} {rest : List Stmt} (h : noFailure 360 s) :
    advance 403 { s with pos := readVerify ++ .verify :: rest } = { afterVerify s with pos := rest } := by
  have h1 := readVer_run (rest := .readFuse .high :: .storeVer .high :: .readFuse .ext :: .storeVer .ext ::
    .verify :: rest) [] .low s.ver h (by decide)
  have h2 := advance_then h1 (readVer_run (rest := .readFuse .ext :: .storeVer .ext :: .verify :: rest)
    (readFuseFrames .low) .high _ h (by decide))
  have h3 := advance_then h2 (readVer_run (rest := .verify :: rest) (readFuseFrames .low ++ readFuseFrames .high) .ext
    _ h (by decide))
  refine (advance_then h3 ((advance_one (st := .verify) (rest := rest) rfl).trans (verifyFuses_eq _))).trans ?_
  simp only [afterFrames_dflt, afterFrames_wrout]
  rfl

/-- What the common part of READALL and RESTORE leaves alone, and the lines it leaves. -/
theorem afterSurvey_registers (s : State) :
    let t := afterSurvey s
    t.out = quiet s.out ∧ t.dir = s.dir ∧ t.phase = s.phase ∧ t.busy = s.busy ∧ t.timedOut = s.timedOut ∧
    t.ver = s.ver ∧ t.wrout = s.wrout ∧ t.setup = s.setup ∧ t.cmdw = s.cmdw ∧ t.pos = s.pos ∧ t.pollN = s.pollN ∧
    t.grant = s.grant ∧ t.turns = s.turns ∧ t.seen = s.seen := by
  have hq : ∀ l, quiet (quiet l) = quiet l := fun _ => rfl
  have h1 : (afterSignature s).out = quiet s.out := by
    simp only [afterSignature]
    exact afterFrames_out _ _ s
  have h2 : ∀ t : State, (afterCurrent t).out = quiet t.out := fun t => by
    simp only [afterCurrent, afterFuseFrames]
    exact afterFrames_out _ _ t
  have h3 : (afterSurvey s).out = quiet s.out := by rw [afterSurvey, h2]; simp only [h1, hq]
  refine ⟨h3, ?_⟩
  simp only [afterSurvey, afterCurrent, afterFuseFrames, afterSignature, afterFrames_dir, afterFrames_phase,
    afterFrames_busy, afterFrames_timedOut, afterFrames_ver, afterFrames_wrout, afterFrames_setup, afterFrames_cmdw,
    afterFrames_pos, afterFrames_pollN, afterFrames_grant, afterFrames_turns, afterFrames_seen, and_self]

/-- The statements of RESTORE after the current FuseSet was read. -/
def restoreRest : List Stmt :=
  .unlessFoundEnd :: .clearTimeout :: .writeDefault .low :: .writeDefault .high :: .writeExtended ::
  (readVerify ++ [.verify, .finish .written])

/-- RESTORE up to the test for an unknown device. -/
theorem restoreSurvey_run {s : State} (h : noFailure 840 s) :
    advance 949 { s with pos := restoreProgram } = { afterSurvey (afterClear s) with pos := restoreRest } :=
  advance_then (clearPlan_run s _) (survey_run (s := afterClear s) (rest := restoreRest) h)

/-- RESTORE for a known device, up to its first write. -/
theorem restoreFound_run {u : State} (hf : u.ident.found = true) :
    advance 2 { u with pos := restoreRest } = { u with
      timedOut := false
      pos := .writeDefault .low :: .writeDefault .high :: .writeExtended ::
        (readVerify ++ [.verify, .finish .written]) } := by
  have h1 := advance_one (s := { u with pos := restoreRest }) rfl
  have h2 : runStmt .unlessFoundEnd { u with pos := restoreRest.tail } = { u with pos := restoreRest.tail } := if_pos hf
  exact advance_then (h1.trans h2) (advance_one (s := { u with pos := restoreRest.tail }) rfl)

/-- RESTORE for an unknown device, to its end. -/
theorem restoreUnknown_run {u : State} (hf : u.ident.found = false) :
    advance 5 { u with pos := restoreRest } = { u with
      wrout := { u.wrout with wl := .skipped, wh := .skipped, we := .skipped }
      err := .unknownDevice, busy := false, pos := [] } := by
  have h1 := advance_one (s := { u with pos := restoreRest }) rfl
  have h2 : runStmt .unlessFoundEnd { u with pos := restoreRest.tail } = { u with pos := unknownEnd } := by
    simp [runStmt, unlessFoundEnd, hf]
  have h3 : advance 4 { u with pos := unknownEnd } = { u with
      wrout := { u.wrout with wl := .skipped, wh := .skipped, we := .skipped }
      err := outcomeOf .identified u, timedOut := ((u.timedOut || false) || false) || false
      busy := false, pos := [] } := rfl
  rw [show outcomeOf .identified u = .unknownDevice by simp [outcomeOf, hf]] at h3
  simp only [Bool.or_false] at h3
  exact advance_then (h1.trans h2) h3

/-- The extended fuse skipped. -/
theorem writeExtended_skipped {u : State} {rest : List Stmt} (h : u.dflt.ext = 0xFF#8) :
    advance 2 { u with pos := .writeExtended :: rest } =
      { u with wrout := { u.wrout with we := .skipped }, pos := rest } := by
  have h1 := advance_one (s := { u with pos := .writeExtended :: rest }) rfl
  have h2 : runStmt .writeExtended { u with pos := rest } = { u with pos := .wrote .ext .skipped :: rest } := by
    simp [runStmt, writeExtended, call, h]
  refine (advance_then (h1.trans h2) (advance_one rfl)).trans ?_
  simp [runStmt, recordWrite, wroutSet]

end Sys2Proof.Machine
end

