-- ==== Sys2Proof/Tests/Slice0.lean ====
section
/-! SUPPORT. Tests of the model on fixed values: the well-formedness checks refuse what they should, words written out
from the spec's tables decode to their instructions, and one step of each instruction gives what the vectors of
`95_test_vectors.md` say. The witnesses of the statements' hypotheses are in `Tests/Witness.lean`. -/

namespace Sys2Proof.Tests

open Sys2Proof.Machine

set_option Elab.async false

/-! ## States to run on -/

/-- The decided parameters of rule R5, with the catalog of rule R161 and the given poll parameters. -/
def params (limit : Option Nat) (interval : Nat) (catalog : List Descriptor) : Params :=
  { tPwrSettleUs := 60, tHvSettleUs := 10, tSdoReleaseUs := 300, pollLimit := limit, pollIntervalUs := interval
    catalog := catalog, tClkHighMinNs := 220, tClkLowMinNs := 220 }

/-- The minimal catalog, no poll bound, no delay between samples. -/
def plain : Setup := ⟨params none 0 Config.catalogMin, by decide⟩

/-- A bound of three samples, 5 microseconds apart. -/
def bounded : Setup := ⟨params (some 3) 5 Config.catalogMin, by decide⟩

/-- A bound of one sample. -/
def oneSample : Setup := ⟨params (some 1) 0 Config.catalogMin, by decide⟩

/-- Two entries with one signature, the catalog of vector DM5. -/
def shadowed : Setup :=
  ⟨params none 0 [{ Config.attiny85 with defL := 0x11, defH := 0x22, defE := 0x33 }, Config.attiny85], by decide⟩

/-- The catalog of vector WF4, whose second entry has a default extended fuse other than 0xFF. -/
def withExtended : Setup :=
  ⟨params none 0 [Config.attiny85,
    { sig0 := 0x1E, sig1 := 0x92, sig2 := 0x06, defL := 0x62, defH := 0xDF, defE := 0xFE, name := "Y" }], by decide⟩

/-- A call that succeeds; a READ gives a low bit. -/
def lo : Answer := { fails := false, level := false, late := 0 }

/-- A call that succeeds; a READ gives a high bit. -/
def hi : Answer := { fails := false, level := true, late := 0 }

/-- A call that fails. -/
def bad : Answer := { fails := true, level := false, late := 0 }

/-- The answers to one frame's forty calls (rule R109) whose samples are the bits of a byte, the first one bit 7. -/
def frameAnswers (r : Byte) : List Answer :=
  let b (k : Nat) : Answer := if r.getLsbD k then hi else lo
  [lo, lo, lo, b 7, lo, lo, lo, b 6, lo, lo, lo, b 5, lo, lo, lo, b 4, lo, lo, lo, b 3, lo, lo, lo, b 2, lo, lo, lo,
   b 1, lo, lo, lo, b 0, lo, lo, lo, lo, lo, lo, lo, lo]

/-- The answers to the frames that return the given bytes. -/
def framesAnswers (rs : List Byte) : List Answer := (rs.map frameAnswers).flatten

/-- The answers to reading a signature and a FuseSet. -/
def surveyAnswers (g : Signature) (f : FuseSet) : List Answer :=
  framesAnswers [0, 0, 0, g.b0, 0, 0, 0, g.b1, 0, 0, 0, g.b2, 0, 0, f.low, 0, 0, f.high, 0, 0, f.ext]

/-- The answers to reading a FuseSet. -/
def fuseAnswers (f : FuseSet) : List Answer := framesAnswers [0, 0, f.low, 0, 0, f.high, 0, 0, f.ext]

/-- The answers to a write of a fuse byte both of whose polls see the line high at once. -/
def writeAnswers : List Answer := framesAnswers [0, 0, 0, 0] ++ [hi] ++ frameAnswers 0 ++ [hi]

/-- The signature and the defaults of the entry of rule R161. -/
def attinySig : Signature := { b0 := 0x1E, b1 := 0x93, b2 := 0x0B }

/-- The defaults of the entry of rule R161. -/
def attinyFuses : FuseSet := { low := 0x62, high := 0xDF, ext := 0xFF }

/-- A block in Idle right after reset, with the given parameters and answers. -/
def idle (x : Setup) (a : List Answer) : State := { State.reset with setup := x, answers := a, grant := 4096 }

/-- A block in Ready, with the given parameters and answers. -/
def ready (x : Setup) (a : List Answer) : State := { idle x a with phase := .ready, out := hvApplied, dir := doutIn }

/-- The given word as the host's next turn. -/
def given (w : CmdWord) (s : State) : State := { s with turns := [{ act := .cmd w, grant := 4096 }] }

/-- The next state of a step. -/
def next (s : State) : State :=
  match step s with
  | .next t => t
  | .fault _ => s
  | .refused _ => s

/-- The next state of a meaning. -/
def ran (i : Instr) (s : State) : State :=
  match exec i s with
  | .next t => t
  | .fault _ => s
  | .refused _ => s

/-- The mask of each SET of a trace. -/
def setMasks (es : List Event) : List (BitVec 5) :=
  es.filterMap (fun e => match e with
    | .set l _ => some (linesMask l)
    | .dir _ _ => none
    | .read _ => none
    | .delay _ _ => none)

/-- The bytes a trace's frames carry on one line, one for each 32 SETs of a frame: the level of the first SET of each
main cycle, the first one bit 7. -/
def carried (line : Lines → Bool) (es : List Event) : List Byte :=
  let sets := es.filterMap (fun e => match e with
    | .set l _ => some (line l)
    | .dir _ _ => none
    | .read _ => none
    | .delay _ _ => none)
  (List.range (sets.length / 32)).map (fun n =>
    BitVec.ofBoolListBE ((List.range 8).map (fun m => sets.getD (32 * n + 3 + 3 * m) false)))

/-! ## Well-formedness -/

theorem test_fields_enter : ({ op := 1, sel := 0, z := 0, a := 0, b := 0 } : CmdFields).legal = true := by decide
theorem test_fields_op : ({ op := 0xA, sel := 0, z := 0, a := 0, b := 0 } : CmdFields).opKnown = false := by decide
theorem test_fields_op_zero : ({ op := 0, sel := 0, z := 0, a := 0, b := 0 } : CmdFields).legal = false := by decide
theorem test_fields_z : ({ op := 1, sel := 0, z := 1, a := 0, b := 0 } : CmdFields).zClear = false := by decide
theorem test_fields_sel : ({ op := 4, sel := 3, z := 0, a := 0, b := 0 } : CmdFields).selAllowed = false := by decide
theorem test_fields_sel_unused : ({ op := 1, sel := 1, z := 0, a := 0, b := 0 } : CmdFields).selAllowed = false := by
  decide
theorem test_fields_a : ({ op := 4, sel := 0, z := 0, a := 1, b := 0 } : CmdFields).aAllowed = false := by decide
theorem test_fields_b : ({ op := 6, sel := 0, z := 0, a := 0x62, b := 1 } : CmdFields).bAllowed = false := by decide

theorem test_params_refused_delay : ({ params none 0 Config.catalogMin with tPwrSettleUs := 19 }).reject =
    some .delayTooShort := by decide
theorem test_params_refused_release : ({ params none 0 Config.catalogMin with tSdoReleaseUs := 299 }).reject =
    some .delayTooShort := by decide
theorem test_params_refused_poll : (params (some 0) 0 Config.catalogMin).reject = some .pollLimitZero := by decide
theorem test_params_refused_clock : ({ params none 0 Config.catalogMin with tClkLowMinNs := 219 }).reject =
    some .clockTooFast := by decide
theorem test_params_refused_empty : (params none 0 []).reject = some .catalogSize := by decide
theorem test_params_refused_long : (params none 0 (List.replicate 17 Config.attiny85)).reject = some .catalogSize := by
  decide
theorem test_params_refused_zero :
    (params none 0 [Config.attiny85, { Config.attiny85 with sig0 := 0, sig1 := 0, sig2 := 0 }]).reject =
      some .catalogZeroSignature := by decide
theorem test_params_refused_lacking : (params none 0 [{ Config.attiny85 with defL := 0x61 }]).reject =
    some .catalogLacksAttiny85 := by decide
theorem test_params_bounds : ({ params (some 1) 0 (List.replicate 16 Config.attiny85) with
    tPwrSettleUs := 20, tHvSettleUs := 10, tSdoReleaseUs := 300 }).reject = none := by decide

/-! ## Decoding (rules R79 to R84; the table of section 2.6) -/

theorem test_decode_enter : decode 0b0001_00_00_00000000_00000000#24 = .ok .enter := by decide
theorem test_decode_exit : decode 0b0010_00_00_00000000_00000000#24 = .ok .exit := by decide
theorem test_decode_frame : decode 0b0011_00_00_00000100_01001100#24 = .ok (.frame 0x04 0x4C) := by decide
theorem test_decode_rdfuse_l : decode 0b0100_00_00_00000000_00000000#24 = .ok .rdfuseL := by decide
theorem test_decode_rdfuse_h : decode 0b0100_01_00_00000000_00000000#24 = .ok .rdfuseH := by decide
theorem test_decode_rdfuse_e : decode 0b0100_10_00_00000000_00000000#24 = .ok .rdfuseE := by decide
theorem test_decode_rdsig_0 : decode 0b0101_00_00_00000000_00000000#24 = .ok .rdsig0 := by decide
theorem test_decode_rdsig_1 : decode 0b0101_01_00_00000000_00000000#24 = .ok .rdsig1 := by decide
theorem test_decode_rdsig_2 : decode 0b0101_10_00_00000000_00000000#24 = .ok .rdsig2 := by decide
theorem test_decode_wrfuse_l : decode 0b0110_00_00_01100010_00000000#24 = .ok (.wrfuseL 0x62) := by decide
theorem test_decode_wrfuse_h : decode 0b0110_01_00_11011111_00000000#24 = .ok (.wrfuseH 0xDF) := by decide
theorem test_decode_wrfuse_e : decode 0b0110_10_00_11111110_00000000#24 = .ok (.wrfuseE 0xFE) := by decide
theorem test_decode_ident : decode 0b0111_00_00_00000000_00000000#24 = .ok .ident := by decide
theorem test_decode_readall : decode 0b1000_00_00_00000000_00000000#24 = .ok .readall := by decide
theorem test_decode_restore : decode 0b1001_00_00_00000000_00000000#24 = .ok .restore := by decide

theorem test_decode_illegal :
    [decode 0x000000, decode 0xA00000, decode 0xF00000, decode 0x100001, decode 0x110000, decode 0x140000,
     decode 0x310000, decode 0x4C0000, decode 0x5C0000, decode 0x400100, decode 0x606201, decode 0x6C6200] =
    [.error .opcode, .error .opcode, .error .opcode, .error .bUnused, .error .zField, .error .selUnused,
     .error .zField, .error .selReserved, .error .selReserved, .error .aUnused, .error .bUnused,
     .error .selReserved] := by decide

theorem test_table_words :
    [decodeTableWord 24 0x440000, decodeTableWord 16 0x084C, decodeTableWord 16 0x1234, decodeTableWord 8 0x10] =
    [some .rdfuseH, some .enterSigRead, none, none] := by decide

/-- The frame constants whose key no other row has, each key `d ++ i` written out from rules R75 to R77. -/
theorem test_decode_frame_keys :
    [decodeFrame 0x044C, decodeFrame 0x084C, decodeFrame 0x404C, decodeFrame 0xA52C, decodeFrame 0x000C,
     decodeFrame 0x010C, decodeFrame 0x020C, decodeFrame 0x007A, decodeFrame 0x007E, decodeFrame 0x006A,
     decodeFrame 0x0064, decodeFrame 0x0074, decodeFrame 0x007C, decodeFrame 0x0066, decodeFrame 0x004C] =
    [.ok .enterFuseRead, .ok .enterSigRead, .ok .enterFuseWrite, .ok (.loadData 0xA5), .ok (.sigSelect 0),
     .ok (.sigSelect 1), .ok (.sigSelect 2), .ok (.fuseSelect .high), .ok (.fuseShift .high), .ok (.fuseSelect .ext),
     .ok (.writeStrobeA .low), .ok (.writeStrobeA .high), .ok (.writeStrobeB .high), .ok (.writeStrobeA .ext),
     .ok .writeEnd] := by decide

/-- The keys that several rows share (rule R78): the first row of the table. -/
theorem test_decode_shared_keys :
    [decodeFrame 0x0068, decodeFrame 0x006C, decodeFrame 0x006E] =
    [.ok .sigShiftA, .ok .sigShiftB, .ok (.fuseShift .ext)] := by decide

/-- The keys of the rows that share one, written out. -/
theorem test_encode_shared_keys :
    [encode .sigShiftA, encode .fuseSelectL, encode .sigShiftB, encode .fuseShiftL, encode .writeStrobeBL,
     encode .fuseShiftE, encode .writeStrobeBE] =
    [.frame 0x0068, .frame 0x0068, .frame 0x006C, .frame 0x006C, .frame 0x006C, .frame 0x006E, .frame 0x006E] := by
  decide

/-! ## Session (vectors SF1 to SF8) -/

/-- SF1. -/
theorem test_enter_from_reset :
    let t := next (given 0x100000 (idle plain (List.replicate 7 lo)))
    t.trace = [.dir (maskLines 0x1F) true, .set (maskLines 0x08) true, .delay 60 60, .set (maskLines 0x00) true,
      .delay 10 10, .dir (maskLines 0x0F) true, .delay 300 300] ∧
    hostRead t 0x00 = 0x04 ∧ hostRead t 0x10 = 0x00 ∧ hostRead t 0x11 = 0x0F := by decide +kernel

/-- SF5. -/
theorem test_enter_second_set_fails :
    let t := next (given 0x100000 (idle plain [lo, lo, lo, bad, lo]))
    t.trace = [.dir (maskLines 0x1F) true, .set (maskLines 0x08) true, .delay 60 60, .set (maskLines 0x00) false,
      .set (maskLines 0x08) true] ∧ hostRead t 0x00 = 0x20 := by decide +kernel

/-- SF2. -/
theorem test_exit_in_ready :
    let t := next (given 0x200000 (ready plain [lo]))
    t.trace = [.set (maskLines 0x08) true] ∧ hostRead t 0x00 = 0x00 ∧ hostRead t 0x10 = 0x08 ∧
      hostRead t 0x11 = 0x0F := by decide +kernel

/-- SF8. -/
theorem test_exit_fails :
    let t := next (given 0x200000 (ready plain [bad]))
    t.trace = [.set (maskLines 0x08) false] ∧ t.phase = .idle ∧ t.err = .transportIoFailure := by decide +kernel

/-- SF3, SF4, SF6, and 0x4C0000 in Idle (section 2.6): the STATUS each leaves. -/
theorem test_status_of_refused :
    hostRead (next (given 0x100000 (ready plain []))) 0x00 = 0x64 ∧
    hostRead (next (given 0x100000 (idle plain [bad]))) 0x00 = 0x10 ∧
    hostRead (next (given 0x400000 (idle plain []))) 0x00 = 0x60 ∧
    hostRead (next (given 0x4C0000 (idle plain []))) 0x00 = 0x50 := by decide +kernel

/-! ## Frames (vectors FC1 to FC6) -/

/-- FC1. -/
theorem test_frame_levels :
    let t := next (given 0x30044C (ready plain (frameAnswers 0xA5)))
    t.result = 0xA5 ∧ t.inLast = true ∧ t.trace.length = 40 ∧
    setMasks t.trace = [0, 4, 0, 0, 4, 0, 2, 6, 2, 0, 4, 0, 0, 4, 0, 2, 6, 2, 3, 7, 3, 0, 4, 0, 0, 4, 0, 0, 4, 0, 4, 0] := by
  decide +kernel

/-- FC6. -/
theorem test_frame_third_read_fails :
    let t := next (given 0x30044C (ready plain ((frameAnswers 0xA5).take 11 ++ [bad, lo])))
    t.trace.length = 13 ∧ hostRead t 0x00 = 0x20 ∧ t.out = maskLines 0x08 ∧ t.result = 0 ∧ t.trace.getLast? =
      some (.set (maskLines 0x08) true) := by decide +kernel

/-- Each frame constant sends the pair of rules R75 to R77: the bytes on the two lines. -/
theorem test_frame_constants :
    ([.enterFuseRead, .enterSigRead, .enterFuseWrite, .loadData 0xA5, .sigSelect0, .sigSelect1, .sigSelect2, .sigShiftA,
      .sigShiftB, .fuseSelectL, .fuseShiftL, .fuseSelectH, .fuseShiftH, .fuseSelectE, .fuseShiftE, .writeStrobeAL,
      .writeStrobeBL, .writeStrobeAH, .writeStrobeBH, .writeStrobeAE, .writeStrobeBE, .writeEnd] : List Instr).map
      (fun i => let t := ran i (ready plain (frameAnswers 0x9C))
        (carried Lines.din t.trace ++ carried Lines.iin t.trace, t.result)) =
    [([0x04, 0x4C], 0x9C), ([0x08, 0x4C], 0x9C), ([0x40, 0x4C], 0x9C), ([0xA5, 0x2C], 0x9C), ([0x00, 0x0C], 0x9C),
     ([0x01, 0x0C], 0x9C), ([0x02, 0x0C], 0x9C), ([0x00, 0x68], 0x9C), ([0x00, 0x6C], 0x9C), ([0x00, 0x68], 0x9C),
     ([0x00, 0x6C], 0x9C), ([0x00, 0x7A], 0x9C), ([0x00, 0x7E], 0x9C), ([0x00, 0x6A], 0x9C), ([0x00, 0x6E], 0x9C),
     ([0x00, 0x64], 0x9C), ([0x00, 0x6C], 0x9C), ([0x00, 0x74], 0x9C), ([0x00, 0x7C], 0x9C), ([0x00, 0x66], 0x9C),
     ([0x00, 0x6E], 0x9C), ([0x00, 0x4C], 0x9C)] := by decide +kernel

/-! ## Transactions (vectors TS1 to TS9) -/

/-- TS1. -/
theorem test_rdfuse_l :
    let t := next (given 0x400000 (ready plain (framesAnswers [0, 0, 0x62])))
    carried Lines.din t.trace = [0x04, 0x00, 0x00] ∧ carried Lines.iin t.trace = [0x4C, 0x68, 0x6C] ∧
    t.trace.length = 120 ∧ t.result = 0x62 ∧ t.cur = { low := 0x62, high := 0, ext := 0 } := by decide +kernel

/-- TS2. -/
theorem test_rdfuse_h :
    let t := next (given 0x440000 (ready plain (framesAnswers [0, 0, 0xDF])))
    carried Lines.iin t.trace = [0x4C, 0x7A, 0x7E] ∧ t.cur = { low := 0, high := 0xDF, ext := 0 } := by decide +kernel

/-- TS3. -/
theorem test_rdfuse_e :
    let t := next (given 0x480000 (ready plain (framesAnswers [0, 0, 0xFF])))
    carried Lines.iin t.trace = [0x4C, 0x6A, 0x6E] ∧ t.cur = { low := 0, high := 0, ext := 0xFF } := by decide +kernel

/-- TS4, first byte. -/
theorem test_rdsig_0 :
    let t := next (given 0x500000 (ready plain (framesAnswers [0, 0, 0, 0x1E])))
    carried Lines.din t.trace = [0x08, 0x00, 0x00, 0x00] ∧ carried Lines.iin t.trace = [0x4C, 0x0C, 0x68, 0x6C] ∧
    t.trace.length = 160 ∧ t.sig = { b0 := 0x1E, b1 := 0, b2 := 0 } := by decide +kernel

/-- TS4, second byte. -/
theorem test_rdsig_1 :
    let t := next (given 0x540000 (ready plain (framesAnswers [0, 0, 0, 0x93])))
    carried Lines.din t.trace = [0x08, 0x01, 0x00, 0x00] ∧ t.sig = { b0 := 0, b1 := 0x93, b2 := 0 } := by decide +kernel

/-- TS4, third byte. -/
theorem test_rdsig_2 :
    let t := next (given 0x580000 (ready plain (framesAnswers [0, 0, 0, 0x0B])))
    carried Lines.din t.trace = [0x08, 0x02, 0x00, 0x00] ∧ t.sig = { b0 := 0, b1 := 0, b2 := 0x0B } := by decide +kernel

/-- TS5. -/
theorem test_wrfuse_l :
    let t := next (given 0x606200 (ready plain writeAnswers))
    carried Lines.din t.trace = [0x40, 0x62, 0x00, 0x00, 0x00] ∧
    carried Lines.iin t.trace = [0x4C, 0x2C, 0x64, 0x6C, 0x4C] ∧
    t.trace.length = 202 ∧ hostRead t 0x0F = 0x01 ∧ t.err = .ok := by decide +kernel

/-- TS9. -/
theorem test_wrfuse_l_second_poll :
    let t := next (given 0x606200 (ready oneSample
      (framesAnswers [0, 0, 0, 0] ++ [hi] ++ frameAnswers 0 ++ [lo])))
    t.trace.length = 202 ∧ t.wrout.wl = .timeout ∧ t.err = .writeTimeout := by decide +kernel

/-- TS6. -/
theorem test_wrfuse_h_timeout :
    let t := next (given 0x64DF00 (ready bounded (framesAnswers [0, 0, 0, 0] ++ [lo, lo, lo, lo, lo])))
    t.trace.drop 160 = [.read (some false), .delay 5 5, .read (some false), .delay 5 5, .read (some false)] ∧
    carried Lines.iin t.trace = [0x4C, 0x2C, 0x74, 0x7C] ∧ hostRead t 0x0F = 0x08 ∧ hostRead t 0x00 = 0x34 := by
  decide +kernel

/-- TS7, on the high byte's strobes. -/
theorem test_wrfuse_h_late :
    let t := next (given 0x64DF00 (ready bounded
      (framesAnswers [0, 0, 0, 0] ++ [lo, lo, hi] ++ frameAnswers 0 ++ [hi])))
    t.trace.length = 204 ∧ t.wrout.wh = .done ∧ t.err = .ok := by decide +kernel

/-- TS8. -/
theorem test_wrfuse_e :
    let t := next (given 0x68FE00 (ready plain writeAnswers))
    carried Lines.din t.trace = [0x40, 0xFE, 0x00, 0x00, 0x00] ∧
    carried Lines.iin t.trace = [0x4C, 0x2C, 0x66, 0x6E, 0x4C] ∧ hostRead t 0x0F = 0x10 := by decide +kernel

/-! ## The Device Matcher and the plans (vectors DM1 to WF7)

A plan has used up exactly its answers, one for each of its events: 840, and 1604 for a full restore. -/

/-- DM1, DM2, DM3, DM4, and DM5, where the first match wins: MATCH, the defaults and ERR. -/
theorem test_ident :
    ([(plain, attinySig), (plain, { b0 := 0xFF, b1 := 0xFF, b2 := 0xFF }), (plain, { b0 := 0, b1 := 0, b2 := 0 }),
      (plain, { b0 := 0x1E, b1 := 0x93, b2 := 0x0C }), (shadowed, attinySig)] : List (Setup × Signature)).map (fun x =>
        let t := next (given 0x700000 { idle x.1 [] with sig := x.2 })
        (hostRead t 0x01, hostRead t 0x09, hostRead t 0x0A, hostRead t 0x0B, errCode t.err)) =
    [(0xC0, 0x62, 0xDF, 0xFF, 0), (0x80, 0x00, 0x00, 0x00, 4), (0x80, 0x00, 0x00, 0x00, 4),
     (0x80, 0x00, 0x00, 0x00, 4), (0xC0, 0x11, 0x22, 0x33, 0)] := by decide +kernel

/-- WF6. -/
theorem test_readall :
    let t := next (given 0x800000 (ready plain (surveyAnswers attinySig attinyFuses)))
    t.answers = [] ∧ t.draws = 0 ∧ t.sig = attinySig ∧ hostRead t 0x01 = 0xC0 ∧ t.cur = attinyFuses ∧
      t.dflt = attinyFuses ∧ t.err = .ok := by decide +kernel

/-- WF7. -/
theorem test_readall_unknown :
    let t := next (given 0x800000 (ready plain (surveyAnswers { b0 := 0xFF, b1 := 0xFF, b2 := 0xFF } attinyFuses)))
    t.answers = [] ∧ t.draws = 0 ∧ t.cur = attinyFuses ∧ t.err = .unknownDevice := by decide +kernel

/-- WF1. -/
theorem test_restore_unknown :
    let t := next (given 0x900000 (ready plain (surveyAnswers { b0 := 0xFF, b1 := 0xFF, b2 := 0xFF }
      { low := 0x6A, high := 0xFF, ext := 0xFF })))
    t.answers = [] ∧ t.draws = 0 ∧ hostRead t 0x01 = 0x80 ∧ t.cur.low = 0x6A ∧ t.ver.low = 0 ∧ hostRead t 0x0F = 0x3F ∧
      hostRead t 0x00 = 0x44 := by decide +kernel

/-- WF2, and WF5 with the current fuses equal to the defaults already: the writes are issued all the same. -/
theorem test_restore :
    ([{ low := 0xE2, high := 0xDF, ext := 0xFF }, attinyFuses] : List FuseSet).all (fun c =>
      let t := next (given 0x900000 (ready plain (surveyAnswers attinySig c ++ writeAnswers ++ writeAnswers ++
        fuseAnswers attinyFuses)))
      t.answers == [] && t.draws == 0 && t.cur == c && t.ver == attinyFuses && hostRead t 0x0F == 0x75 && t.err == .ok &&
        t.result == 0xFF) = true := by decide +kernel

/-! ## A host's read in the middle of a group (rules R61, R233) -/

/-- The host reads MATCH and DEF of an IDENT after each of its steps: a group is written byte by byte. -/
theorem test_ident_half_written :
    (List.range 7).map (fun n =>
      let t := ran .ident { idle plain [] with sig := attinySig, busy := true, grant := n }
      (hostRead t 0x01, hostRead t 0x09, hostRead t 0x0A, hostRead t 0x0B, t.busy)) =
    [(0x00, 0x00, 0x00, 0x00, true), (0x00, 0x00, 0x00, 0x00, true), (0xC0, 0x00, 0x00, 0x00, true),
     (0xC0, 0x62, 0x00, 0x00, true), (0xC0, 0x62, 0xDF, 0x00, true), (0xC0, 0x62, 0xDF, 0xFF, true),
     (0xC0, 0x62, 0xDF, 0xFF, false)] := by decide +kernel

/-! ## The lines (rules R21, R148, R231) -/

/-- Before a DIR no line is known; in a session the data-out line carries no level; after a failed DIR and the exit SET
data-out is not known. -/
theorem test_line_levels :
    [lineLevel [.set exitLevels true] .rst, lineLevel [.dir doutIn true, .set exitLevels true] .rst,
     lineLevel [.dir doutIn true, .set exitLevels true] .dout, lineLevel [.dir allOut true, .set exitLevels true] .dout,
     lineLevel [.dir allOut true, .dir doutIn false, .set exitLevels true] .dout,
     lineLevel [.dir allOut true, .dir doutIn false, .set exitLevels true] .clk,
     lineLevel [.dir allOut true, .set exitLevels false] .rst] =
    [none, some true, none, some false, none, some false, none] := by decide

end Sys2Proof.Tests
end

