-- ==== Sys2Proof/Tests/Witness.lean ====
section
/-! SUPPORT. For every statement that has hypotheses, a state and operands that meet all of them together, at the
boundary of each range. `witness_<Name>` is the witness of `Obligations.<Name>`. -/

namespace Sys2Proof.Tests

open Sys2Proof.Machine

set_option Elab.async false

/-! ## The hypotheses as checks -/

/-- The next n answers are written down, and none is a failure. -/
def noFailureCheck (n : Nat) (s : State) : Bool :=
  decide (n ≤ s.answers.length) && (s.answers.take n).all (fun a => !a.fails)

theorem noFailure_of_check {n : Nat} {s : State} (h : noFailureCheck n s = true) : noFailure n s := by
  intro k hk
  simp only [noFailureCheck, Bool.and_eq_true, decide_eq_true_eq, List.all_eq_true, Bool.not_eq_true'] at h
  have hl : k < s.answers.length := by omega
  have := h.2 s.answers[k] (List.mem_iff_getElem.mpr ⟨k, by simp; omega, by simp⟩)
  simpa [answerAt, hl] using this

/-- The j-th sample of a poll is the given bit. -/
def sampleCheck (s : State) (j : Nat) (b : Bool) : Bool :=
  !(answerAt s (pollStride s * j)).fails && (answerAt s (pollStride s * j)).level == b

/-- A poll ends as said. -/
def pollCheck (r : PollRun) (s : State) : Bool :=
  match r with
  | .ready k => (List.range k).all (fun j => sampleCheck s j false) && sampleCheck s k true &&
      (match s.setup.params.pollLimit with | none => true | some l => decide (k < l))
  | .timeout k => (List.range (k + 1)).all (fun j => sampleCheck s j false) &&
      s.setup.params.pollLimit == some (k + 1)

theorem pollRuns_of_check {r : PollRun} {s : State} (h : pollCheck r s = true) : pollRuns r s := by
  cases r with
  | ready k =>
    simp only [pollCheck, sampleCheck, Bool.and_eq_true, List.all_eq_true, List.mem_range, Bool.not_eq_true',
      beq_iff_eq] at h
    refine ⟨fun j hj => h.1.1 j hj, h.1.2, fun l hl => ?_⟩
    have := h.2
    rw [hl] at this
    simpa using this
  | timeout k =>
    simp only [pollCheck, sampleCheck, Bool.and_eq_true, List.all_eq_true, List.mem_range, Bool.not_eq_true',
      beq_iff_eq] at h
    exact ⟨fun j hj => h.1 j hj, h.2⟩

/-- A write runs as said. -/
def writeCheck (f : Fuse) (v : Byte) (w : WriteRun) (s : State) : Bool :=
  noFailureCheck 160 s && pollCheck (firstPoll w) (afterFrames (writeFuseFrames f v) s) &&
  match secondPoll w with
  | none => true
  | some r =>
    noFailureCheck 40 (afterFirstPoll f v w s) && pollCheck r (afterFrame 0x00#8 0x4C#8 (afterFirstPoll f v w s))

theorem writeRuns_of_check {f : Fuse} {v : Byte} {w : WriteRun} {s : State} (h : writeCheck f v w s = true) :
    writeRuns f v w s := by
  simp only [writeCheck, Bool.and_eq_true] at h
  refine ⟨noFailure_of_check h.1.1, pollRuns_of_check h.1.2, ?_⟩
  have h2 := h.2
  cases hw : secondPoll w with
  | none => trivial
  | some r =>
    simp only [hw, Bool.and_eq_true] at h2
    exact ⟨noFailure_of_check h2.1, pollRuns_of_check h2.2⟩

/-! ## Steps and the handshake -/

theorem witness_AcceptedWordRuns :
    let s := given 0x30FFFF (ready plain (frameAnswers 0x00))
    s.busy = false ∧ s.turns = { act := .cmd 0x30FFFF, grant := 4096 } :: [] ∧
      decode 0x30FFFF#24 = .ok (.frame 0xFF 0xFF) := by decide +kernel

/-- A block that sends its last frame. -/
def sending : State :=
  { ready plain (frameAnswers 0x80) with
    busy := true, pos := [.send .writeEnd, .finish .ok], turns := [{ act := .wait, grant := 0 }] }

theorem witness_NextFrameRuns :
    sending.turns = { act := .wait, grant := 0 } :: [] ∧ sending.pos = .send .writeEnd :: [.finish .ok] := by
  decide +kernel

theorem witness_WaitingHostLetsBlockRun :
    sending.turns = { act := .wait, grant := 0 } :: [] ∧ State.reset.turns = [] := ⟨rfl, rfl⟩

theorem witness_BusyBlockDropsWord :
    let s := given 0x100000 { sending with busy := true }
    s.busy = true ∧ s.turns = { act := .cmd 0x100000, grant := 4096 } :: [] := ⟨rfl, rfl⟩

/-- The clause for a turn without steps. -/
theorem witness_BusyBlockDropsWord_zero :
    let s := { sending with turns := [{ act := .cmd 0x100000, grant := 0 }] }
    s.busy = true ∧ s.turns = { act := .cmd 0x100000, grant := 0 } :: [] := ⟨rfl, rfl⟩

theorem witness_IllegalWordCompletesAtOnce :
    let s := given 0xFFFFFF (idle plain [])
    s.busy = false ∧ s.turns = { act := .cmd 0xFFFFFF, grant := 4096 } :: [] ∧
      decode 0xFFFFFF#24 = .error .zField := by decide +kernel

theorem witness_WrongPhaseCompletesAtOnce :
    let s := given 0x900000 (idle plain [])
    s.busy = false ∧ s.turns = { act := .cmd 0x900000, grant := 4096 } :: [] ∧ decode 0x900000#24 = .ok .restore ∧
      s.phase ∉ allowedPhases .restore := by decide +kernel

theorem witness_BlockResetSetsRegisters :
    let s := { sending with turns := [{ act := .reset, grant := 7 }] }
    s.turns = { act := .reset, grant := 7 } :: [] := rfl

theorem witness_HostReadChangesNothing :
    let s := { sending with turns := [{ act := .read 0x11, grant := 0 }] }
    s.turns = { act := .read 0x11, grant := 0 } :: [] := rfl

/-- Both cases: a busy block, and one that is not. -/
theorem witness_WaitRepeatsUntilNotBusy :
    ({ sending with turns := [{ act := .waitDone, grant := 1 }] }).turns = { act := .waitDone, grant := 1 } :: [] ∧
    sending.busy = true ∧
    ({ idle plain [] with turns := [{ act := .waitDone, grant := 1 }] }).turns = { act := .waitDone, grant := 1 } :: [] ∧
    (idle plain []).busy = false := ⟨rfl, rfl, rfl, rfl⟩

/-! ## Frames -/

/-- A Ready block whose next frame returns 0xA5, with just the steps a FRAME takes. -/
def frameReady : State := { ready plain (frameAnswers 0xA5) with grant := 45 }

theorem frameReady_ok : frameReady.phase = .ready ∧ noFailure 40 frameReady ∧ 45 ≤ frameReady.grant :=
  ⟨rfl, noFailure_of_check (by decide +kernel), by decide⟩

theorem witness_FrameCommandCompletes : frameReady.phase = .ready ∧ noFailure 40 frameReady ∧ 45 ≤ frameReady.grant :=
  frameReady_ok

theorem witness_FrameByteIsItsSamples : frameReady.phase = .ready ∧ noFailure 40 frameReady ∧ 45 ≤ frameReady.grant :=
  frameReady_ok

theorem witness_FrameEventOrder :
    frameReady.phase = .ready ∧ noFailure 40 frameReady ∧ 45 ≤ frameReady.grant ∧ frameReady.out.clk = false :=
  ⟨frameReady_ok.1, frameReady_ok.2.1, frameReady_ok.2.2, rfl⟩

theorem witness_FrameKeepsResetAndDirections : frameReady.phase = .ready ∧ noFailure 40 frameReady :=
  ⟨frameReady_ok.1, frameReady_ok.2.1⟩

/-- A frame whose first, or whose last, call fails. -/
theorem witness_FrameFailureAborts :
    (let s := { ready plain [bad] with grant := 45 }
     s.phase = .ready ∧ 0 < 40 ∧ noFailure 0 s ∧ (answerAt s 0).fails = true ∧ 45 ≤ s.grant) ∧
    (let s := { ready plain ((frameAnswers 0xA5).take 39 ++ [bad]) with grant := 45 }
     s.phase = .ready ∧ 39 < 40 ∧ noFailure 39 s ∧ (answerAt s 39).fails = true ∧ 45 ≤ s.grant) :=
  ⟨⟨rfl, by decide, noFailure_of_check (by decide +kernel), by decide +kernel, by decide⟩,
   ⟨rfl, by decide, noFailure_of_check (by decide +kernel), by decide +kernel, by decide⟩⟩

theorem witness_FrameConstantsComplete :
    let s := { ready plain (frameAnswers 0x01) with grant := 44 }
    noFailure 40 s ∧ frameSteps ≤ s.grant := ⟨noFailure_of_check (by decide +kernel), by decide⟩

/-! ## Mode entry and exit -/

theorem witness_EnterCompletes :
    let s := { idle plain (List.replicate 7 lo) with grant := 12 }
    s.phase = .idle ∧ (answerAt s 0).fails = false ∧ (answerAt s 1).fails = false ∧ (answerAt s 3).fails = false ∧
      (answerAt s 5).fails = false ∧ 12 ≤ s.grant := by decide +kernel

theorem witness_EnterPassesPhasesInOrder :
    let s := { idle plain (List.replicate 7 lo) with busy := true }
    s.phase = .idle ∧ s.busy = true ∧ (answerAt s 0).fails = false ∧ (answerAt s 1).fails = false ∧
      (answerAt s 3).fails = false ∧ (answerAt s 5).fails = false := by decide +kernel

theorem witness_EnterUnavailable :
    let s := { idle plain [bad] with grant := 1 }
    s.phase = .idle ∧ (answerAt s 0).fails = true ∧ 1 ≤ s.grant := by decide +kernel

/-- In Idle and in Ready. -/
theorem witness_ExitCompletes :
    (let s := { idle plain [lo] with grant := 3 }
     (s.phase = .idle ∨ s.phase = .ready) ∧ (answerAt s 0).fails = false ∧ 3 ≤ s.grant) ∧
    (let s := { ready plain [lo] with grant := 3 }
     (s.phase = .idle ∨ s.phase = .ready) ∧ (answerAt s 0).fails = false ∧ 3 ≤ s.grant) := by decide +kernel

/-- The clauses on the lines: no DIR yet, each mask of rule R21, and a failure since. -/
theorem witness_ExitCompletes_lines :
    directions ([] : List Event) = .undeclared ∧ directions [.dir doutIn true] = .declared (maskLines 0b01111) ∧
      directions [.dir allOut true] = .declared (maskLines 0b11111) ∧
      directions [.dir allOut true, .read none] = .suspect := by decide

theorem witness_ExitFailureIsNotRetried :
    let s := { ready plain [bad] with grant := 2 }
    (s.phase = .idle ∨ s.phase = .ready) ∧ (answerAt s 0).fails = true ∧ 2 ≤ s.grant := by decide +kernel

/-- Each kind of statement whose call an abort follows. -/
theorem witness_AbortIsPrecise :
    ∀ st ∈ ([.set .abort restReset, .dir .abort doutIn, .driveZero, .driveBit 0, .driveBit 7, .clock true,
        .sampleBit 7, .poll] : List Stmt),
      let s := { ready plain [bad, bad] with busy := true, pos := [st], turns := [{ act := .wait, grant := 3 }] }
      s.turns = { act := .wait, grant := 3 } :: [] ∧ 3 ≤ 3 ∧ s.pos = st :: [] ∧ (abortingCall s st).isSome = true ∧
        (answerAt s 0).fails = true := by decide +kernel

/-- The clauses on the lines: the exit SET succeeds after a DIR that did, and it fails. -/
theorem witness_AbortIsPrecise_lines :
    (let s := { ready plain [bad, lo] with
      busy := true, pos := [.poll], turns := [{ act := .wait, grant := 3 }], trace := [.dir doutIn true] }
     s.turns = { act := .wait, grant := 3 } :: [] ∧ s.pos = .poll :: [] ∧ abortingCall s .poll = some (.read none) ∧
       (answerAt s 0).fails = true ∧ (answerAt s 1).fails = false ∧ directions s.trace ≠ .undeclared) ∧
    (let s := { ready plain [bad, bad] with
      busy := true, pos := [.poll], turns := [{ act := .wait, grant := 3 }] }
     s.turns = { act := .wait, grant := 3 } :: [] ∧ s.pos = .poll :: [] ∧ abortingCall s .poll = some (.read none) ∧
       (answerAt s 0).fails = true ∧ (answerAt s 1).fails = true) := by decide +kernel

/-! ## Transactions -/

theorem witness_RdfuseCompletes :
    let s := { ready plain (framesAnswers [1, 2, 3]) with grant := 135 }
    s.phase = .ready ∧ noFailure 120 s ∧ 135 ≤ s.grant := ⟨rfl, noFailure_of_check (by decide +kernel), by decide⟩

theorem witness_RdsigCompletes :
    let s := { ready plain (framesAnswers [1, 2, 3, 4]) with grant := 179 }
    s.phase = .ready ∧ noFailure 160 s ∧ 179 ≤ s.grant := ⟨rfl, noFailure_of_check (by decide +kernel), by decide⟩

/-- A write both of whose polls succeed, with one low sample before each high one. -/
theorem witness_WrfuseCompletes_done :
    let s := ready bounded (framesAnswers [0, 0, 0, 0] ++ [lo, lo, hi] ++ frameAnswers 0 ++ [lo, lo, hi])
    s.phase = .ready ∧ writeRuns .high 0xDF (.done 1 1) { s with timedOut := false } ∧
      writeSteps .high 0xDF (.done 1 1) { s with timedOut := false } + 1 ≤ s.grant :=
  ⟨rfl, writeRuns_of_check (by decide +kernel), by decide +kernel⟩

/-- A write whose first poll times out. -/
theorem witness_WrfuseCompletes_first :
    let s := ready bounded (framesAnswers [0, 0, 0, 0] ++ [lo, lo, lo, lo, lo])
    s.phase = .ready ∧ writeRuns .low 0x62 (.firstTimeout 2) { s with timedOut := false } ∧
      writeSteps .low 0x62 (.firstTimeout 2) { s with timedOut := false } + 1 ≤ s.grant ∧
      writeOutcome (.firstTimeout 2) = .timeout :=
  ⟨rfl, writeRuns_of_check (by decide +kernel), by decide +kernel, rfl⟩

/-- A write whose second poll times out. -/
theorem witness_WrfuseCompletes_second :
    let s := ready oneSample (framesAnswers [0, 0, 0, 0] ++ [hi] ++ frameAnswers 0 ++ [lo])
    s.phase = .ready ∧ writeRuns .ext 0xFE (.secondTimeout 0 0) { s with timedOut := false } ∧
      writeSteps .ext 0xFE (.secondTimeout 0 0) { s with timedOut := false } + 1 ≤ s.grant ∧
      writeOutcome (.secondTimeout 0 0) = .timeout :=
  ⟨rfl, writeRuns_of_check (by decide +kernel), by decide +kernel, rfl⟩

/-- The reads of the first two clauses have the witnesses of `RdfuseCompletes` and `RdsigCompletes`; this is the
third's. -/
theorem witness_TransactionEventCounts :
    let s := { ready plain writeAnswers with grant := 227 }
    s.phase = .ready ∧ noFailure 202 s ∧ (answerAt s 160).level = true ∧ (answerAt s 201).level = true ∧
      227 ≤ s.grant :=
  ⟨rfl, noFailure_of_check (by decide +kernel), by decide +kernel, by decide +kernel, by decide⟩

/-- The hypotheses of `TimeoutEndsWrite` are met by the writes of `witness_WrfuseCompletes_first` and
`witness_WrfuseCompletes_second`. -/
theorem witness_TimeoutEndsWrite :
    let s := ready bounded (framesAnswers [0, 0, 0, 0] ++ [lo, lo, lo, lo, lo])
    s.phase = .ready ∧ writeRuns .low 0x62 (.firstTimeout 2) { s with timedOut := false } ∧
      writeSteps .low 0x62 (.firstTimeout 2) { s with timedOut := false } + 1 ≤ s.grant ∧
      writeOutcome (.firstTimeout 2) = .timeout := witness_WrfuseCompletes_first

/-- A block at the start of a poll. -/
def polling (x : Setup) (a : List Answer) : State :=
  { ready x a with busy := true, pos := [.pollStart, .poll, .wrote .low .done, .finish .written] }

theorem witness_UnboundedPollNeverEnds :
    let s := polling plain [lo, lo, lo, lo, lo]
    s.setup.params.pollLimit = none ∧ s.pos = .pollStart :: .poll :: [.wrote .low .done, .finish .written] ∧
      s.busy = true ∧ ∀ j, j < 5 → pollLow s j :=
  ⟨rfl, rfl, rfl, by unfold pollLow; decide +kernel⟩

theorem witness_PollHoldsLines :
    (let s := polling bounded [lo, lo, hi]
     s.pos = .pollStart :: .poll :: [.wrote .low .done, .finish .written] ∧ pollRuns (.ready 1) s) ∧
    (let s := polling bounded [lo, lo, lo, lo, lo]
     s.pos = .pollStart :: .poll :: [.wrote .low .done, .finish .written] ∧ pollRuns (.timeout 2) s) :=
  ⟨⟨rfl, pollRuns_of_check (by decide +kernel)⟩, ⟨rfl, pollRuns_of_check (by decide +kernel)⟩⟩

/-- The clause of a poll after a frame. -/
theorem witness_PollHoldsLines_frame :
    let s := { polling bounded (frameAnswers 0x00 ++ [lo, lo, hi]) with
      pos := [.send .writeEnd, .pollStart, .poll, .wrote .low .done, .finish .written] }
    s.pos = .send .writeEnd :: .pollStart :: .poll :: [.wrote .low .done, .finish .written] ∧ noFailure 40 s ∧
      pollRuns (.ready 1) (afterFrame (frameBytes .writeEnd).1 (frameBytes .writeEnd).2 s) :=
  ⟨rfl, noFailure_of_check (by decide +kernel), pollRuns_of_check (by decide +kernel)⟩

/-- The smallest bound, and a larger one. -/
theorem witness_BoundedPollSamples :
    (let s := polling oneSample [lo]
     s.setup.params.pollLimit = some 1 ∧ s.pos = .pollStart :: .poll :: [.wrote .low .done, .finish .written]) ∧
    (let s := polling bounded [lo, lo, lo, lo, lo]
     s.setup.params.pollLimit = some 3 ∧ s.pos = .pollStart :: .poll :: [.wrote .low .done, .finish .written]) :=
  ⟨⟨rfl, rfl⟩, ⟨rfl, rfl⟩⟩

/-! ## The Device Matcher -/

/-- A signature other than zero; both sides of each clause occur. -/
theorem witness_IdentifyFirstMatch :
    attinySig ≠ { b0 := 0, b1 := 0, b2 := 0 } ∧
    identify shadowed.params.catalog attinySig = some (0, { Config.attiny85 with defL := 0x11, defH := 0x22, defE := 0x33 }) ∧
    identify shadowed.params.catalog { attinySig with b2 := 0x0C } = none := by decide

theorem witness_ZeroSignatureNeverMatches : ∀ e ∈ Config.catalogMin, e.zeroSignature = false := by decide

theorem witness_IdentCompletes : 6 ≤ ({ idle plain [] with grant := 6 }).grant := by decide

/-- The last index a catalog can have. -/
theorem witness_CatalogIndexFits :
    ∃ x : Setup, identify x.params.catalog attinySig = some (15, Config.attiny85) :=
  ⟨⟨params none 0 (List.replicate 15 { Config.attiny85 with sig0 := 0x1D } ++ [Config.attiny85]), by decide⟩, by decide⟩

theorem witness_OpenCatalogCoversAllowed :
    Config.catalogMin.length ≤ 16 ∧ (∀ e ∈ Config.catalogMin, e.zeroSignature = false) ∧
      Config.attiny85 ∈ Config.catalogMin := by decide

/-! ## Plans -/

theorem witness_ReadallCompletes :
    let s := { ready plain (surveyAnswers attinySig attinyFuses) with grant := 942 }
    s.phase = .ready ∧ noFailure 840 s ∧ 942 ≤ s.grant := ⟨rfl, noFailure_of_check (by decide +kernel), by decide⟩

/-- With the grant READALL's clause asks for. -/
theorem witness_SurveyLeavesBytesRead :
    let s := { ready plain (surveyAnswers attinySig attinyFuses) with grant := 942 }
    s.phase = .ready ∧ noFailure 840 s ∧ 942 ≤ s.grant := witness_ReadallCompletes

theorem witness_RestoreUnknownDevice :
    let s := { ready plain (surveyAnswers { b0 := 0xFF, b1 := 0xFF, b2 := 0xFF } attinyFuses) with grant := 954 }
    s.phase = .ready ∧ noFailure 840 s ∧
      (afterSurvey (afterClear { s with timedOut := false })).ident.found = false ∧ 954 ≤ s.grant :=
  ⟨rfl, noFailure_of_check (by decide +kernel), by decide +kernel, by decide⟩

/-- A known device without an extended fuse: one write times out, the other does not. -/
theorem witness_RestoreSkipsExtended :
    let s := ready oneSample (surveyAnswers attinySig attinyFuses ++ (framesAnswers [0, 0, 0, 0] ++ [lo]) ++
      writeAnswers ++ fuseAnswers attinyFuses)
    let u := afterSurvey (afterClear { s with timedOut := false })
    let u1 := afterWrite .low u.dflt.low (.firstTimeout 0) u
    let u2 := afterWrite .high u.dflt.high (.done 0 0) u1
    let u3 := { u2 with wrout := { u2.wrout with we := .skipped } }
    s.phase = .ready ∧ noFailure 840 s ∧ u.ident.found = true ∧ u.dflt.ext = 0xFF ∧
      writeRuns .low u.dflt.low (.firstTimeout 0) u ∧ writeRuns .high u.dflt.high (.done 0 0) u1 ∧ noFailure 360 u3 ∧
      1357 + writeSteps .low u.dflt.low (.firstTimeout 0) u + writeSteps .high u.dflt.high (.done 0 0) u1 ≤ s.grant :=
  ⟨rfl, noFailure_of_check (by decide +kernel), by decide +kernel, by decide +kernel,
   writeRuns_of_check (by decide +kernel), writeRuns_of_check (by decide +kernel),
   noFailure_of_check (by decide +kernel), by decide +kernel⟩

/-- A known device with an extended fuse, whose target stores what is written. -/
theorem witness_RestoreWritesAllThree :
    let s := ready withExtended (surveyAnswers { b0 := 0x1E, b1 := 0x92, b2 := 0x06 } attinyFuses ++ writeAnswers ++
      writeAnswers ++ writeAnswers ++ fuseAnswers { attinyFuses with ext := 0xFE })
    let u := afterSurvey (afterClear { s with timedOut := false })
    let u1 := afterWrite .low u.dflt.low (.done 0 0) u
    let u2 := afterWrite .high u.dflt.high (.done 0 0) u1
    let u3 := afterWrite .ext u.dflt.ext (.done 0 0) u2
    s.phase = .ready ∧ noFailure 840 s ∧ u.ident.found = true ∧ u.dflt.ext ≠ 0xFF ∧
      writeRuns .low u.dflt.low (.done 0 0) u ∧ writeRuns .high u.dflt.high (.done 0 0) u1 ∧
      writeRuns .ext u.dflt.ext (.done 0 0) u2 ∧ noFailure 360 u3 ∧
      1355 + writeSteps .low u.dflt.low (.done 0 0) u + writeSteps .high u.dflt.high (.done 0 0) u1 +
        writeSteps .ext u.dflt.ext (.done 0 0) u2 ≤ s.grant ∧
      storingTarget u.cur [(.low, u.dflt.low), (.high, u.dflt.high), (.ext, u.dflt.ext)] u3 :=
  ⟨rfl, noFailure_of_check (by decide +kernel), by decide +kernel, by decide +kernel,
   writeRuns_of_check (by decide +kernel), writeRuns_of_check (by decide +kernel),
   writeRuns_of_check (by decide +kernel), noFailure_of_check (by decide +kernel), by decide +kernel,
   by unfold storingTarget; decide +kernel⟩

/-- The clauses of a target that stores what is written: both writes complete, and the current FuseSet equals the
defaults already (vector WF5). -/
theorem witness_RestoreSkipsExtended_storing :
    let s := ready plain (surveyAnswers attinySig attinyFuses ++ writeAnswers ++ writeAnswers ++ fuseAnswers attinyFuses)
    let u := afterSurvey (afterClear { s with timedOut := false })
    let u1 := afterWrite .low u.dflt.low (.done 0 0) u
    let u2 := afterWrite .high u.dflt.high (.done 0 0) u1
    let u3 := { u2 with wrout := { u2.wrout with we := .skipped } }
    s.phase = .ready ∧ noFailure 840 s ∧ u.ident.found = true ∧ u.dflt.ext = 0xFF ∧
      writeRuns .low u.dflt.low (.done 0 0) u ∧ writeRuns .high u.dflt.high (.done 0 0) u1 ∧ noFailure 360 u3 ∧
      1357 + writeSteps .low u.dflt.low (.done 0 0) u + writeSteps .high u.dflt.high (.done 0 0) u1 ≤ s.grant ∧
      u.cur.ext = 0xFF ∧ u.cur = u.dflt ∧ storingTarget u.cur [(.low, u.dflt.low), (.high, u.dflt.high)] u3 :=
  ⟨rfl, noFailure_of_check (by decide +kernel), by decide +kernel, by decide +kernel,
   writeRuns_of_check (by decide +kernel), writeRuns_of_check (by decide +kernel),
   noFailure_of_check (by decide +kernel), by decide +kernel, by decide +kernel, by decide +kernel,
   by unfold storingTarget; decide +kernel⟩

theorem witness_VerifyComparesAllBytes :
    let s := { ready plain [] with busy := true, pos := [.verify, .finish .written], turns := [{ act := .wait, grant := 1 }] }
    s.turns = { act := .wait, grant := 1 } :: [] ∧ s.pos = .verify :: [.finish .written] := ⟨rfl, rfl⟩

theorem witness_CommandsWriteListedRegistersOnly :
    commandOf (.frame 0x04 0x4C) = some 0x30044C#24 ∧
      exec (.frame 0x04 0x4C) frameReady = .next (ran (.frame 0x04 0x4C) frameReady) := ⟨by decide, rfl⟩

/-! ## Invariants -/

theorem blockInv_of_rest {s : State} (hd : s.dir = allOut) (hb : s.busy = false) (hp : s.pos = [])
    (hr : atRest s.phase s.out s.dir = true) : BlockInv s := by
  unfold BlockInv
  rw [if_neg (by simp [hb])]
  exact ⟨.inl hd, hp, hr⟩

theorem settledTrace_nil (wanted : Nat) : settledTrace wanted [] := by
  intro b e a h
  cases b <;> cases h

/-- After reset and through the acceptance of ENTER. -/
theorem witness_InvariantKept :
    let s := { State.reset with turns := [{ act := .cmd 0x100000, grant := 1 }] }
    BlockInv s ∧ step s = .next (next s) :=
  ⟨blockInv_of_rest rfl rfl rfl rfl, rfl⟩

theorem witness_SettledInvariantKept :
    let s := { State.reset with turns := [{ act := .cmd 0x100000, grant := 1 }] }
    SettledInv s ∧ step s = .next (next s) :=
  ⟨⟨blockInv_of_rest rfl rfl rfl rfl, settledTrace_nil _, fun h => (nomatch h), rfl⟩, rfl⟩

/-- A step that takes a host's turn, and a block reset. -/
theorem witness_RegistersFollowTrace :
    (let s := given 0x200000 (ready plain [lo])
     step s = .next (next s) ∧ (nextTurn s).act ≠ .reset) ∧
    (let s := { sending with turns := [{ act := .reset, grant := 7 }] }
     step s = .next (next s) ∧ (nextTurn s).act = .reset) := ⟨⟨rfl, by decide⟩, ⟨rfl, rfl⟩⟩

theorem witness_DelaysNeverEarly :
    let s := given 0x100000 (idle plain (List.replicate 7 lo))
    step s = .next (next s) := rfl

end Sys2Proof.Tests
end

section
/-! PROOF. When a block can be built (`00_scope.md` rule R5): what each check on the parameters says, when no check
refuses, and when `Setup.configure` builds the block. -/

namespace Sys2Proof

/-- Rule R162's all-zero signature, byte by byte. -/
theorem Descriptor.zeroSignature_iff (e : Descriptor) :
    e.zeroSignature = true ↔ e.sig0 = 0 ∧ e.sig1 = 0 ∧ e.sig2 = 0 := by
  simp [Descriptor.zeroSignature, and_assoc]

namespace Params

theorem delaysLong_iff (p : Params) :
    p.delaysLong = true ↔ 20 ≤ p.tPwrSettleUs ∧ 10 ≤ p.tHvSettleUs ∧ 300 ≤ p.tSdoReleaseUs := by
  simp [delaysLong, and_assoc]

theorem pollLimitPositive_iff (p : Params) : p.pollLimitPositive = true ↔ p.pollLimit ≠ some 0 := by
  simp [pollLimitPositive]

theorem clockSlow_iff (p : Params) :
    p.clockSlow = true ↔ 220 ≤ p.tClkHighMinNs ∧ 220 ≤ p.tClkLowMinNs := by
  simp [clockSlow]

theorem catalogSized_iff (p : Params) :
    p.catalogSized = true ↔ 1 ≤ p.catalog.length ∧ p.catalog.length ≤ 16 := by
  simp only [catalogSized, Bool.and_eq_true, decide_eq_true_eq]

theorem catalogNonzero_iff (p : Params) :
    p.catalogNonzero = true ↔ ∀ e ∈ p.catalog, ¬(e.sig0 = 0 ∧ e.sig1 = 0 ∧ e.sig2 = 0) := by
  simp only [catalogNonzero, List.all_eq_true, Bool.not_eq_true', ← Bool.not_eq_true,
    Descriptor.zeroSignature_iff]

theorem catalogHasAttiny85_iff (p : Params) :
    p.catalogHasAttiny85 = true ↔ Config.attiny85 ∈ p.catalog := by
  simp only [catalogHasAttiny85, decide_eq_true_eq]

/-- The checks together say all of rule R5. -/
theorem wf_iff (p : Params) :
    p.wf = true ↔
      20 ≤ p.tPwrSettleUs ∧ 10 ≤ p.tHvSettleUs ∧ 300 ≤ p.tSdoReleaseUs ∧ p.pollLimit ≠ some 0 ∧
      220 ≤ p.tClkHighMinNs ∧ 220 ≤ p.tClkLowMinNs ∧ 1 ≤ p.catalog.length ∧ p.catalog.length ≤ 16 ∧
      (∀ e ∈ p.catalog, ¬(e.sig0 = 0 ∧ e.sig1 = 0 ∧ e.sig2 = 0)) ∧ Config.attiny85 ∈ p.catalog := by
  simp only [wf, Bool.and_eq_true, delaysLong_iff, pollLimitPositive_iff, clockSlow_iff, catalogSized_iff,
    catalogNonzero_iff, catalogHasAttiny85_iff, and_assoc]

/-- The converse of `wf_of_reject_none`: parameters that pass every check are not refused. -/
theorem reject_none_of_wf {p : Params} (h : p.wf = true) : p.reject = none := by
  simp only [wf, Bool.and_eq_true] at h
  obtain ⟨⟨⟨⟨⟨hdelay, hpoll⟩, hclock⟩, hsize⟩, hzero⟩, hhas⟩ := h
  simp [reject, hdelay, hpoll, hclock, hsize, hzero, hhas]

end Params

namespace Setup

theorem configure_ok {p : Params} (h : p.wf = true) : configure p = .ok ⟨p, h⟩ := by
  unfold configure
  split
  · rfl
  · next r hr => rw [Params.reject_none_of_wf h] at hr; cases hr

/-- A block is built from exactly the parameters that pass every check. A block carries its own proof of that
(`Setup.ok`), so building needs only the converse, `configure_ok`. -/
theorem configure_builds_iff (p : Params) : (∃ x, configure p = .ok x ∧ x.params = p) ↔ p.wf = true := by
  constructor
  · rintro ⟨x, -, rfl⟩
    exact x.ok
  · intro h
    exact ⟨⟨p, h⟩, configure_ok h, rfl⟩

end Setup

/-- Settles O45: a block is built where every check passes (`configure_builds_iff`), and the checks are rule R5's
constraints (`wf_iff`). -/
theorem parametersChecked : Obligations.ParametersChecked := by
  unfold Obligations.ParametersChecked
  intro p
  exact (Setup.configure_builds_iff p).trans p.wf_iff

end Sys2Proof
end

section
/-! PROOF. What a step can do, beside `Laws/Exec.lean`: the statements a command begins with, and the state from which
the sequencer goes on in each turn of the host. -/

namespace Sys2Proof.Machine

/-- RESTORE's test goes on, or leads to the end for an unknown device. -/
theorem unlessFoundEnd_cases (s : State) : unlessFoundEnd s = s ∨ unlessFoundEnd s = { s with pos := unknownEnd } := by
  unfold unlessFoundEnd
  split
  · exact .inl rfl
  · exact .inr rfl

/-! ## Commands -/

/-- The statements of a command; a frame constant is none. -/
def commandProgram (p : Params) : Instr → List Stmt
  | .enter => enterProgram p
  | .exit => exitProgram
  | .frame d i => frameProgram d i
  | .rdfuseL => rdfuseProgram .low
  | .rdfuseH => rdfuseProgram .high
  | .rdfuseE => rdfuseProgram .ext
  | .rdsig0 => rdsigProgram 0
  | .rdsig1 => rdsigProgram 1
  | .rdsig2 => rdsigProgram 2
  | .wrfuseL v => wrfuseProgram .low v
  | .wrfuseH v => wrfuseProgram .high v
  | .wrfuseE v => wrfuseProgram .ext v
  | .ident => identProgram
  | .readall => readallProgram
  | .restore => restoreProgram
  | _ => []

/-- A command begins with its statements. -/
theorem startOf_command {i : Instr} {w : CmdWord} (hi : commandOf i = some w) (s : State) :
    startOf i s = begin i (commandProgram s.setup.params i) s := by
  cases i with
  | enter | exit | frame | rdfuseL | rdfuseH | rdfuseE | rdsig0 | rdsig1 | rdsig2 | wrfuseL | wrfuseH | wrfuseE | ident
  | readall | restore => rfl
  | _ => cases hi

/-- A row without operands stands for its own instruction alone. -/
theorem bareCommand_isSome {f : CmdFields} {i j : Instr} (hj : (commandOf j).isSome) (h : bareCommand f j = .ok i) :
    (commandOf i).isSome := by
  unfold bareCommand at h
  split_ifs at h
  cases h
  exact hj

/-- A row with three selectors stands for one of its three instructions. -/
theorem selectThree_isSome {sel : BitVec 2} {i i0 i1 i2 : Instr} (h0 : (commandOf i0).isSome)
    (h1 : (commandOf i1).isSome) (h2 : (commandOf i2).isSome) (h : selectThree sel i0 i1 i2 = .ok i) :
    (commandOf i).isSome := by
  unfold selectThree at h
  split_ifs at h <;> cases h <;> assumption

/-- A command word decodes to a command, never to a frame constant (rule R83). -/
theorem commandOf_of_decode {w : CmdWord} {i : Instr} (h : decode w = .ok i) : (commandOf i).isSome := by
  simp only [decode] at h
  split at h
  · cases h
  split at h
  · exact bareCommand_isSome rfl h
  · exact bareCommand_isSome rfl h
  · split_ifs at h
    cases h
    rfl
  · split_ifs at h
    exact selectThree_isSome rfl rfl rfl h
  · split_ifs at h
    exact selectThree_isSome rfl rfl rfl h
  · split_ifs at h
    exact selectThree_isSome rfl rfl rfl h
  · exact bareCommand_isSome rfl h
  · exact bareCommand_isSome rfl h
  · exact bareCommand_isSome rfl h
  · cases h

/-! ## The host's turns -/

/-- Where no instruction begins, the sequencer goes on. -/
theorem step_proceed {s u : State} (h : fetch s = .proceed u) : step s = .next (advance u.grant u) := by
  simp only [step, h]

/-- Where an instruction begins, the sequencer goes on from its start. -/
theorem step_instr {s u : State} {i : Instr} (h : fetch s = .instr i u) :
    step s = .next (advance u.grant (startOf i u)) := by
  simp only [step, h, exec_advance]

section
variable {s : State} {turn : Turn} {rest : List Turn} (h : s.turns = turn :: rest)
include h

theorem nextTurn_of_turns : nextTurn s = turn := by simp [nextTurn, h]

theorem takeTurn_of_turns : takeTurn s = { s with turns := rest, grant := turn.grant } := by
  simp [takeTurn, nextTurn_of_turns h, h]

theorem fetch_of_turns : fetch s = actOn turn.act { s with turns := rest, grant := turn.grant } := by
  rw [fetch, nextTurn_of_turns h, takeTurn_of_turns h]

end

/-- A waiting host's turn (rule R27). -/
theorem step_of_wait {s : State} {n : Nat} {rest : List Turn} (h : s.turns = { act := .wait, grant := n } :: rest) :
    step s = .next (advance n { s with turns := rest, grant := n }) := by
  rw [step_wait s (by rw [nextTurn_of_turns h]), takeTurn_of_turns h]

/-- Block reset takes its turn, and nothing remains to do (rules R220, R221). -/
theorem step_of_reset {s : State} {n : Nat} {rest : List Turn} (h : s.turns = { act := .reset, grant := n } :: rest) :
    step s = .next (blockReset { s with turns := rest, grant := n }) := by
  rw [step_proceed (fetch_of_turns h), advance_idle rfl]

/-- A host read's turn (rule R52). -/
theorem step_of_read {s : State} {a : RegAddr} {n : Nat} {rest : List Turn}
    (h : s.turns = { act := .read a, grant := n } :: rest) :
    step s = .next (advance n (noteRead a { s with turns := rest, grant := n })) := by
  rw [step_proceed (fetch_of_turns h)]
  rfl

/-- WAIT changes the host's turns and what the host read, and no register. -/
theorem waitDone_only (s : State) : ∃ turns seen, waitDone s = { s with turns := turns, seen := seen } := by
  unfold waitDone
  split <;> exact ⟨_, _, rfl⟩

/-- The state from which the sequencer goes on in a turn of the host, whose act is the index. -/
inductive Resumes (s : State) : HostAct → State → Prop
  /-- the host waits -/
  | wait : Resumes s .wait (takeTurn s)
  /-- a word is dropped by a busy block (rule R202) -/
  | dropped (w : CmdWord) (hbusy : s.busy = true) : Resumes s (.cmd w) (takeTurn s)
  /-- a command is accepted (rule R200) -/
  | command (w : CmdWord) (i : Instr) (hbusy : s.busy = false) (hi : (commandOf i).isSome) :
    Resumes s (.cmd w) (startOf i (accept w (takeTurn s)))
  /-- an illegal word completes at once (rule R196) -/
  | illegal (w : CmdWord) (hbusy : s.busy = false) : Resumes s (.cmd w) (illegalCommand (accept w (takeTurn s)))
  /-- a host read -/
  | read (a : RegAddr) : Resumes s (.read a) (noteRead a (takeTurn s))
  /-- WAIT -/
  | waitDone : Resumes s .waitDone (waitDone (takeTurn s))
  /-- block reset -/
  | reset : Resumes s .reset (blockReset (takeTurn s))

/-- Every step is an advance of the sequencer from where the host's act leads. -/
theorem step_resumes {s t : State} (h : step s = .next t) :
    ∃ n u, Resumes s (nextTurn s).act u ∧ t = advance n u := by
  have hfetch : fetch s = actOn (nextTurn s).act (takeTurn s) := rfl
  cases hact : (nextTurn s).act with
  | wait =>
    rw [step_wait s hact] at h
    cases h
    exact ⟨_, _, .wait, rfl⟩
  | cmd w =>
    rw [hact, actOn, presentWord] at hfetch
    split at hfetch
    · next hbusy =>
      rw [step_proceed hfetch] at h
      cases h
      exact ⟨_, _, .dropped w hbusy, rfl⟩
    next hbusy =>
    rw [Bool.not_eq_true] at hbusy
    split at hfetch
    · next i hdecode =>
      rw [step_instr hfetch] at h
      cases h
      exact ⟨_, _, .command w i hbusy (commandOf_of_decode hdecode), rfl⟩
    · rw [step_proceed hfetch] at h
      cases h
      exact ⟨_, _, .illegal w hbusy, rfl⟩
  | read a =>
    rw [step_proceed (hfetch.trans (by rw [hact, actOn]))] at h
    cases h
    exact ⟨_, _, .read a, rfl⟩
  | waitDone =>
    rw [step_proceed (hfetch.trans (by rw [hact, actOn]))] at h
    cases h
    exact ⟨_, _, .waitDone, rfl⟩
  | reset =>
    rw [step_proceed (hfetch.trans (by rw [hact, actOn]))] at h
    cases h
    exact ⟨_, _, .reset, rfl⟩

/-- Settles O9: running the frame constant begins with its frame before the statements that remain, which is the
position the sequencer stands at (`startOf_frameInstr`). -/
theorem nextFrameRuns : Obligations.NextFrameRuns := by
  unfold Obligations.NextFrameRuns
  intro s n rest f p hturns hpos
  have hstep := step_of_wait hturns
  refine ⟨?_, hstep⟩
  rw [hstep, exec_advance, startOf_frameInstr, ← hpos]

/-- Settles O10: the waiting host's turn is `step_of_wait`, and a host without turns waits for one step. -/
theorem waitingHostLetsBlockRun : Obligations.WaitingHostLetsBlockRun := by
  unfold Obligations.WaitingHostLetsBlockRun
  refine ⟨fun s n rest hturns => step_of_wait hturns, fun s hturns => ?_⟩
  have hnext : nextTurn s = { act := .wait, grant := 1 } := by simp [nextTurn, hturns]
  rw [step_wait s (by rw [hnext])]
  simp [takeTurn, hnext, hturns]

end Sys2Proof.Machine
end

section
/-! PROOF. The invariant of every state, `BlockInv`: it holds after reset, every statement of the sequencer keeps it,
and so does what the host does (`10_state.md` rules R21, R24; `42_session.md` rule R148). -/

namespace Sys2Proof.Machine

/-! ## The invariant in its parts -/

/-- The invariant depends on five registers only. -/
theorem blockInv_congr {s t : State} (hdir : t.dir = s.dir) (hout : t.out = s.out) (hphase : t.phase = s.phase)
    (hbusy : t.busy = s.busy) (hpos : t.pos = s.pos) : BlockInv t ↔ BlockInv s := by
  simp only [BlockInv, runsInReady, hdir, hout, hphase, hbusy, hpos]

/-- A block at rest, with either direction mask. -/
theorem blockInv_rest {s : State} (hdir : s.dir = allOut ∨ s.dir = doutIn) (hbusy : s.busy = false) (hpos : s.pos = [])
    (hrest : atRest s.phase s.out s.dir = true) : BlockInv s := by
  simp [BlockInv, hdir, hbusy, hpos, hrest]

/-- A busy block on the way of a session's command or of an abort. -/
theorem blockInv_session {s : State} (hdir : s.dir = allOut ∨ s.dir = doutIn) (hbusy : s.busy = true)
    (hflow : sessionFlow s.phase s.out s.dir s.pos = true) : BlockInv s := by
  simp [BlockInv, hdir, hbusy, hflow]

/-- A busy block that runs a command in Ready. -/
theorem blockInv_ready {s : State} (hbusy : s.busy = true) (hready : runsInReady s) : BlockInv s := by
  simp [BlockInv, hready.2.1, hbusy, hready]

/-- A busy block that runs IDENT. -/
theorem blockInv_matcher {s : State} (hdir : s.dir = allOut ∨ s.dir = doutIn) (hbusy : s.busy = true)
    (hrest : atRest s.phase s.out s.dir = true) (hflow : matcherFlow s.pos = true) : BlockInv s := by
  simp [BlockInv, hdir, hbusy, hrest, hflow]

/-- The two rests of the block. -/
theorem atRest_iff {p : Phase} {out dir : Lines} : atRest p out dir = true ↔
    (p = .idle ∧ out = exitLevels) ∨ (p = .ready ∧ out = hvApplied ∧ dir = doutIn) := by
  simp [atRest, and_assoc]

/-- The invariant after a block reset, and so after reset. -/
theorem blockInv_blockReset (s : State) : BlockInv (blockReset s) :=
  blockInv_rest (.inl rfl) rfl rfl rfl

/-- The failure of a call that leads to the abort keeps the invariant: the abort ends at the exit levels. -/
theorem blockInv_abort {s : State} (hdir : s.dir = allOut ∨ s.dir = doutIn) (hbusy : s.busy = true) :
    BlockInv (raiseFailure .abort s) :=
  blockInv_session hdir hbusy rfl

/-- A SET whose failure is the abort's: it keeps the invariant where its success does. -/
theorem blockInv_setLines {s : State} {l : Lines} (hdir : s.dir = allOut ∨ s.dir = doutIn) (hbusy : s.busy = true)
    (hok : BlockInv (issue (.set l true) { s with out := l })) : BlockInv (setLines .abort l s) := by
  obtain ⟨-, h⟩ | ⟨-, h⟩ := setLines_cases .abort l s <;> rw [h]
  · exact hok
  · exact blockInv_abort hdir hbusy

/-! ## ENTER, EXIT and the abort -/

/-- On the way of a session's command a completion is ENTER's or EXIT's, the last statement, at rest. -/
theorem sessionFlow_finish {p : Phase} {out dir : Lines} {e : Ending} {rest : List Stmt}
    (h : sessionFlow p out dir (.finish e :: rest) = true) : e = .ok ∧ atRest p out dir = true := by
  cases e <;> cases rest <;> simp_all [sessionFlow]

/-- The end of an abort is the last statement, at the exit levels. -/
theorem sessionFlow_abortEnd {p : Phase} {out dir : Lines} {rest : List Stmt}
    (h : sessionFlow p out dir (.abortEnd :: rest) = true) : out = exitLevels := by
  cases rest <;> simp_all [sessionFlow]

/-- The abort's exit SET comes before its end alone. -/
theorem sessionFlow_abortSet {p : Phase} {out dir : Lines} {rest : List Stmt}
    (h : sessionFlow p out dir (.abortSet :: rest) = true) : rest = [.abortEnd] := by
  unfold sessionFlow at h
  split at h <;> simp_all

/-- A SET of ENTER, or the SET of EXIT. -/
theorem blockInv_runStmt_set {s : State} {p : OnFail} {l : Lines} {rest : List Stmt}
    (hdir : s.dir = allOut ∨ s.dir = doutIn) (hbusy : s.busy = true)
    (hflow : sessionFlow s.phase s.out s.dir (.set p l :: rest) = true) :
    BlockInv (runStmt (.set p l) { s with pos := rest }) := by
  cases p with
  | abort =>
    simp only [sessionFlow, Bool.and_eq_true] at hflow
    exact blockInv_setLines hdir hbusy (blockInv_session hdir hbusy hflow.2)
  | exitFailed =>
    simp only [sessionFlow, Bool.and_eq_true, beq_iff_eq] at hflow
    obtain ⟨rfl, hrest⟩ := hflow
    obtain ⟨-, h⟩ | ⟨-, h⟩ := setLines_cases .exitFailed exitLevels { s with pos := rest } <;> rw [runStmt, h]
    · exact blockInv_session hdir hbusy hrest
    · exact blockInv_session hdir hbusy rfl
  | unavailable => cases hflow

/-- A DIR of ENTER. -/
theorem blockInv_runStmt_dir {s : State} {p : OnFail} {m : Lines} {rest : List Stmt}
    (hbusy : s.busy = true) (hflow : sessionFlow s.phase s.out s.dir (.dir p m :: rest) = true) :
    BlockInv (runStmt (.dir p m) { s with pos := rest }) := by
  cases p with
  | abort =>
    simp only [sessionFlow, Bool.and_eq_true, Bool.or_eq_true, beq_iff_eq] at hflow
    obtain ⟨⟨-, hm⟩, hrest⟩ := hflow
    obtain ⟨-, h⟩ | ⟨-, h⟩ := dirLines_cases .abort m { s with pos := rest } <;> rw [runStmt, h]
    · exact blockInv_session hm hbusy hrest
    · exact blockInv_abort hm hbusy
  | unavailable =>
    simp only [sessionFlow, Bool.and_eq_true, Bool.or_eq_true, beq_iff_eq] at hflow
    obtain ⟨⟨⟨-, hm⟩, hout⟩, hrest⟩ := hflow
    obtain ⟨-, h⟩ | ⟨-, h⟩ := dirLines_cases .unavailable m { s with pos := rest } <;> rw [runStmt, h]
    · exact blockInv_session hm hbusy hrest
    · exact blockInv_rest hm rfl rfl (atRest_iff.mpr (.inl ⟨rfl, hout⟩))
  | exitFailed => cases hflow

/-- A statement of ENTER, of EXIT or of an abort keeps the invariant. -/
theorem blockInv_runStmt_session {s : State} {st : Stmt} {rest : List Stmt} (hdir : s.dir = allOut ∨ s.dir = doutIn)
    (hbusy : s.busy = true) (hflow : sessionFlow s.phase s.out s.dir (st :: rest) = true) :
    BlockInv (runStmt st { s with pos := rest }) := by
  cases st with
  | set p l => exact blockInv_runStmt_set hdir hbusy hflow
  | dir p m => exact blockInv_runStmt_dir hbusy hflow
  | delay n => exact blockInv_session hdir hbusy hflow
  | phase q => exact blockInv_session hdir hbusy hflow
  | finish e => exact blockInv_rest hdir rfl rfl (sessionFlow_finish hflow).2
  | abortSet =>
    obtain rfl := sessionFlow_abortSet hflow
    exact blockInv_session hdir hbusy rfl
  | abortEnd => exact blockInv_rest hdir rfl rfl (atRest_iff.mpr (.inl ⟨rfl, sessionFlow_abortEnd hflow⟩))
  | _ => cases hflow

/-! ## Commands that run in Ready -/

theorem readyFlow_poll {d c : Bool} {rest : List Stmt} : readyFlow d c (.poll :: rest) = true ↔
    d = true ∧ c = true ∧ rest.any isWrote = true ∧ readyFlow true true rest = true := by simp [readyFlow, and_assoc]

theorem readyFlow_wrote {d c : Bool} {f : Fuse} {r : WriteOutcome} {rest : List Stmt} :
    readyFlow d c (.wrote f r :: rest) = true ↔ d = true ∧ c = true ∧ readyFlow true true rest = true := by
  simp [readyFlow, and_assoc]

theorem readyFlow_writeExtended {d c : Bool} {rest : List Stmt} :
    readyFlow d c (.writeExtended :: rest) = true ↔ d = true ∧ c = true ∧ readyFlow true true rest = true := by
  simp [readyFlow, and_assoc]

theorem readyFlow_unlessFoundEnd {d c : Bool} {rest : List Stmt} :
    readyFlow d c (.unlessFoundEnd :: rest) = true ↔ d = true ∧ c = true ∧ readyFlow d c rest = true := by
  simp [readyFlow, and_assoc]

theorem readyFlow_finish {d c : Bool} {e : Ending} {rest : List Stmt} :
    readyFlow d c (.finish e :: rest) = true ↔ d = true ∧ c = true ∧ rest = [] := by simp [readyFlow, and_assoc]

/-- A way that ends with every line low does so from lower lines too. -/
theorem readyFlow_mono {d c d' c' : Bool} {l : List Stmt} (h : readyFlow d c l = true) (hd : d = true → d' = true)
    (hc : c = true → c' = true) : readyFlow d' c' l = true := by
  induction l generalizing d c d' c' with
  | nil => cases h
  | cons st rest ih =>
    cases st with
    | clock b => exact ih h hd id
    | driveBit k => exact ih h id id
    | set | dir | phase | abortSet | abortEnd => cases h
    | driveZero | transfer | send | readFuse | readSig | writeFuse | writeDefault => exact h
    | poll => exact readyFlow_poll.mpr ((readyFlow_poll.mp h).imp hd (And.imp_left hc))
    | wrote f r => exact readyFlow_wrote.mpr ((readyFlow_wrote.mp h).imp hd (And.imp_left hc))
    | writeExtended => exact readyFlow_writeExtended.mpr ((readyFlow_writeExtended.mp h).imp hd (And.imp_left hc))
    | finish e => exact readyFlow_finish.mpr ((readyFlow_finish.mp h).imp hd (And.imp_left hc))
    | unlessFoundEnd =>
      exact readyFlow_unlessFoundEnd.mpr ((readyFlow_unlessFoundEnd.mp h).imp hd (And.imp hc fun hr => ih hr hd hc))
    | _ => exact ih h hd hc

/-- From lines that are all low any way that ends so does. -/
theorem readyFlow_low {d c : Bool} {l : List Stmt} (h : readyFlow d c l = true) : readyFlow true true l = true :=
  readyFlow_mono h (fun _ => rfl) (fun _ => rfl)

/-- Where a statement is not the last one, the statements after it are on a way too. -/
theorem readyFlow_tail {d c : Bool} {st : Stmt} {rest : List Stmt} (h : readyFlow d c (st :: rest) = true)
    (hne : rest ≠ []) : readyFlow true true rest = true := by
  cases st with
  | set | dir | phase | abortSet | abortEnd => cases h
  | finish e =>
    obtain ⟨-, -, hlast⟩ := readyFlow_finish.mp h
    exact absurd hlast hne
  | poll =>
    obtain ⟨-, -, -, hrest⟩ := readyFlow_poll.mp h
    exact hrest
  | wrote f r =>
    obtain ⟨-, -, hrest⟩ := readyFlow_wrote.mp h
    exact hrest
  | writeExtended =>
    obtain ⟨-, -, hrest⟩ := readyFlow_writeExtended.mp h
    exact hrest
  | unlessFoundEnd =>
    obtain ⟨-, -, hrest⟩ := readyFlow_unlessFoundEnd.mp h
    exact readyFlow_low hrest
  | _ => exact readyFlow_low h

/-- A write that returns TIMEOUT is on a way to every line low. -/
theorem readyFlow_timeoutExit {d c : Bool} {l : List Stmt} (h : readyFlow d c l = true) (hw : l.any isWrote = true) :
    readyFlow true true (timeoutExit l) = true := by
  induction l generalizing d c with
  | nil => cases hw
  | cons st rest ih =>
    cases st with
    | wrote f r => exact readyFlow_low h
    | _ =>
      have hw' : rest.any isWrote = true := by simpa [isWrote] using hw
      exact ih (readyFlow_tail h (by rintro rfl; cases hw')) hw'

/-- Where the lines are low now, it suffices that the way is one from low lines. -/
theorem readyFlow_of_low {d c : Bool} {l : List Stmt} (h : readyFlow true true l = true) (hd : d = true)
    (hc : c = true) : readyFlow d c l = true := readyFlow_mono h (fun _ => hd) (fun _ => hc)

/-- A frame ends with `din`, `iin` and `clk` low (rule R108). -/
theorem readyFlow_frameBody (d c : Bool) (rest : List Stmt) :
    readyFlow d c (frameBody ++ rest) = readyFlow true true rest := rfl

/-- A write leaves the lines low at its polls and at its return. -/
theorem readyFlow_writeFuseBody (d c : Bool) (f : Fuse) (v : Byte) (rest : List Stmt) :
    readyFlow d c (writeFuseBody f v ++ rest) = readyFlow true true rest := by
  simp [writeFuseBody, pollBody, readyFlow, isWrote]

/-- The statements of a poll that goes on. -/
theorem readyFlow_pollAgain (interval : Nat) (rest : List Stmt) :
    readyFlow true true (pollAgain interval ++ rest) = (rest.any isWrote && readyFlow true true rest) := by
  unfold pollAgain
  split <;> simp [readyFlow]

/-- A SET of a frame keeps the invariant, where the lines it leaves low are as the way needs them. -/
theorem blockInv_frameSet {s : State} {l : Lines} {d c : Bool} (hbusy : s.busy = true) (hphase : s.phase = .ready)
    (hdir : s.dir = doutIn) (hrst : l.rst = false) (hdout : l.dout = false) (hflow : readyFlow d c s.pos = true)
    (hd : d = true → (!l.din && !l.iin) = true) (hc : c = true → (!l.clk) = true) :
    BlockInv (setLines .abort l s) :=
  blockInv_setLines (.inr hdir) hbusy (blockInv_ready hbusy ⟨hphase, hdir, hrst, hdout, readyFlow_mono hflow hd hc⟩)

/-- A poll's sample keeps the invariant: the poll returns, goes on, or returns from the write. -/
theorem blockInv_poll {s : State} {rest : List Stmt} (hbusy : s.busy = true)
    (hready : runsInReady { s with pos := .poll :: rest }) : BlockInv (runStmt .poll { s with pos := rest }) := by
  obtain ⟨hphase, hdir, hrst, hdout, hflow⟩ := hready
  obtain ⟨hd, hc, hw, hrest⟩ := readyFlow_poll.mp hflow
  rw [runStmt]
  obtain ⟨-, h⟩ | ⟨-, h⟩ := sample_cases pollSample { s with pos := rest } <;> rw [h]
  · obtain ⟨-, h⟩ | ⟨-, -, h⟩ | ⟨-, -, h⟩ := pollSample_cases (answerAt { s with pos := rest } 0).level
        (issue (.read (some (answerAt { s with pos := rest } 0).level))
          { s with pos := rest, inLast := (answerAt { s with pos := rest } 0).level }) <;> rw [h]
    · exact blockInv_ready hbusy ⟨hphase, hdir, hrst, hdout, readyFlow_of_low hrest hd hc⟩
    · exact blockInv_ready hbusy ⟨hphase, hdir, hrst, hdout, readyFlow_of_low (readyFlow_timeoutExit hrest hw) hd hc⟩
    · exact blockInv_ready hbusy ⟨hphase, hdir, hrst, hdout,
        readyFlow_of_low ((readyFlow_pollAgain _ rest).trans (by rw [hw, hrest]; rfl)) hd hc⟩
  · exact blockInv_abort (.inr hdir) hbusy

/-- A statement of a command that runs in Ready keeps the invariant. -/
theorem blockInv_runStmt_ready {s : State} {st : Stmt} {rest : List Stmt} (hbusy : s.busy = true)
    (hready : runsInReady { s with pos := st :: rest }) : BlockInv (runStmt st { s with pos := rest }) := by
  have ⟨hphase, hdir, hrst, hdout, hflow⟩ := hready
  cases st with
  | set | dir | phase | abortSet | abortEnd => cases hflow
  | poll => exact blockInv_poll hbusy hready
  | driveZero => exact blockInv_frameSet hbusy hphase hdir hrst hdout hflow (fun _ => rfl) (fun _ => rfl)
  | driveBit k => exact blockInv_frameSet hbusy hphase hdir hrst hdout hflow (fun h => by cases h) (fun _ => rfl)
  | clock b => exact blockInv_frameSet hbusy hphase hdir hrst hdout hflow id id
  | sampleBit k =>
    obtain ⟨-, h⟩ | ⟨-, h⟩ := sample_cases (takeBit k) { s with pos := rest } <;> rw [runStmt, h]
    · exact blockInv_ready hbusy ⟨hphase, hdir, hrst, hdout, hflow⟩
    · exact blockInv_abort (.inr hdir) hbusy
  | writeFuse f v =>
    exact blockInv_ready hbusy ⟨hphase, hdir, hrst, hdout, (readyFlow_writeFuseBody _ _ f v rest).trans hflow⟩
  | writeDefault f =>
    exact blockInv_ready hbusy ⟨hphase, hdir, hrst, hdout, (readyFlow_writeFuseBody _ _ f _ rest).trans hflow⟩
  | writeExtended =>
    obtain ⟨hd, hc, hrest⟩ := readyFlow_writeExtended.mp hflow
    refine blockInv_ready hbusy ⟨hphase, hdir, hrst, hdout, readyFlow_of_low ?_ hd hc⟩
    simp only [runStmt, writeExtended, call_pos]
    split
    · exact hrest
    · exact (readyFlow_writeFuseBody _ _ _ _ rest).trans hrest
  | unlessFoundEnd =>
    obtain ⟨hd, hc, hrest⟩ := readyFlow_unlessFoundEnd.mp hflow
    obtain h | h := unlessFoundEnd_cases { s with pos := rest } <;> rw [runStmt, h]
    · exact blockInv_ready hbusy ⟨hphase, hdir, hrst, hdout, hrest⟩
    · exact blockInv_ready hbusy ⟨hphase, hdir, hrst, hdout, readyFlow_of_low rfl hd hc⟩
  | wrote f r =>
    obtain ⟨hd, hc, hrest⟩ := readyFlow_wrote.mp hflow
    exact blockInv_ready hbusy ⟨hphase, hdir, hrst, hdout, readyFlow_of_low hrest hd hc⟩
  | identifyMatch =>
    obtain ⟨m, h⟩ := identifyMatch_only { s with pos := rest }
    rw [runStmt, h]
    exact blockInv_ready hbusy ⟨hphase, hdir, hrst, hdout, hflow⟩
  | identifyDef f =>
    obtain ⟨v, h⟩ := identifyDef_only f { s with pos := rest }
    rw [runStmt, h]
    exact blockInv_ready hbusy ⟨hphase, hdir, hrst, hdout, hflow⟩
  | finish e =>
    obtain ⟨hd, hc, -⟩ := readyFlow_finish.mp hflow
    have hout : s.out = hvApplied := by
      cases hs : s.out
      simp_all [hvApplied, maskLines]
    exact blockInv_rest (.inr hdir) rfl rfl (atRest_iff.mpr (.inr ⟨hphase, hout, hdir⟩))
  | _ => exact blockInv_ready hbusy ⟨hphase, hdir, hrst, hdout, hflow⟩

/-! ## IDENT -/

/-- A statement of IDENT keeps the invariant: it makes no transport call. -/
theorem blockInv_runStmt_matcher {s : State} {st : Stmt} {rest : List Stmt} (hdir : s.dir = allOut ∨ s.dir = doutIn)
    (hbusy : s.busy = true) (hrest : atRest s.phase s.out s.dir = true) (hflow : matcherFlow (st :: rest) = true) :
    BlockInv (runStmt st { s with pos := rest }) := by
  cases st with
  | finish e => exact blockInv_rest hdir rfl rfl hrest
  | applyIdentify => exact blockInv_matcher hdir hbusy hrest hflow
  | identifyMatch =>
    obtain ⟨m, h⟩ := identifyMatch_only { s with pos := rest }
    rw [runStmt, h]
    exact blockInv_matcher hdir hbusy hrest hflow
  | identifyDef f =>
    obtain ⟨v, h⟩ := identifyDef_only f { s with pos := rest }
    rw [runStmt, h]
    exact blockInv_matcher hdir hbusy hrest hflow
  | _ => cases hflow

/-! ## The sequencer, the start of a command, and the host's turns -/

/-- A statement keeps the invariant, whatever the transport answers. -/
theorem blockInv_runStmt {s : State} {st : Stmt} {rest : List Stmt} (hpos : s.pos = st :: rest) (h : BlockInv s) :
    BlockInv (runStmt st { s with pos := rest }) := by
  obtain ⟨hdir, hway⟩ := h
  split at hway
  · next hbusy =>
    rw [hpos] at hway
    obtain hflow | hready | ⟨hrest, hflow⟩ := hway
    · exact blockInv_runStmt_session hdir hbusy hflow
    · exact blockInv_runStmt_ready hbusy (by rwa [← hpos])
    · exact blockInv_runStmt_matcher hdir hbusy hrest hflow
  · cases hpos.symm.trans hway.1

/-- The sequencer keeps the invariant. -/
theorem blockInv_advance (n : Nat) {s : State} (h : BlockInv s) : BlockInv (advance n s) :=
  advance_induction (P := BlockInv) (fun _ _ _ hpos h => blockInv_runStmt hpos h) n s h

/-- A command other than ENTER, EXIT and IDENT is allowed in Ready only, and ends with every line low again. -/
theorem commandProgram_ready {i : Instr} {q : Phase} (p : Params) (hi : (commandOf i).isSome)
    (hallowed : allowedIn q i = true) (henter : i ≠ .enter) (hexit : i ≠ .exit) (hident : i ≠ .ident) :
    q = .ready ∧ readyFlow true true (commandProgram p i) = true := by
  cases i with
  | enter | exit | ident => contradiction
  | frame | rdfuseL | rdfuseH | rdfuseE | rdsig0 | rdsig1 | rdsig2 | wrfuseL | wrfuseH | wrfuseE | readall | restore =>
    exact ⟨by simpa [allowedIn] using hallowed, rfl⟩
  | _ => cases hi

/-- A command keeps the invariant where it begins: it is refused, or its statements are a way to rest. -/
theorem blockInv_start {i : Instr} {s : State} (hi : (commandOf i).isSome) (hdir : s.dir = allOut ∨ s.dir = doutIn)
    (hbusy : s.busy = true) (hrest : atRest s.phase s.out s.dir = true) : BlockInv (startOf i s) := by
  obtain ⟨w, hw⟩ := Option.isSome_iff_exists.mp hi
  rw [startOf_command hw]
  cases hallowed : allowedIn s.phase i with
  | false =>
    rw [begin_refused _ hallowed]
    exact blockInv_rest hdir rfl rfl hrest
  | true =>
    rw [begin_allowed _ hallowed]
    by_cases henter : i = .enter
    · subst henter
      have hphase : s.phase = .idle := by simpa [allowedIn] using hallowed
      have hout : s.out = exitLevels := by simpa [atRest_iff, hphase] using hrest
      exact blockInv_session hdir hbusy (by simp only [hphase, hout]; rfl)
    by_cases hexit : i = .exit
    · subst hexit
      exact blockInv_session hdir hbusy rfl
    by_cases hident : i = .ident
    · subst hident
      exact blockInv_matcher hdir hbusy hrest rfl
    obtain ⟨hphase, hflow⟩ := commandProgram_ready s.setup.params hi hallowed henter hexit hident
    obtain ⟨hout, hdoutIn⟩ : s.out = hvApplied ∧ s.dir = doutIn := by simpa [atRest_iff, hphase] using hrest
    refine blockInv_ready hbusy ⟨hphase, hdoutIn, ?_, ?_, ?_⟩
    · rw [hout]; rfl
    · rw [hout]; rfl
    · simp only [hout]; exact hflow

/-- Every act of the host keeps the invariant. -/
theorem blockInv_resumes {s u : State} {a : HostAct} (h : BlockInv s) (hact : Resumes s a u) : BlockInv u := by
  have htaken : BlockInv (takeTurn s) := (blockInv_congr rfl rfl rfl rfl rfl).mpr h
  have hstopped (hbusy : s.busy = false) : s.pos = [] ∧ atRest s.phase s.out s.dir = true := by
    simpa [BlockInv, hbusy] using h.2
  cases hact with
  | wait | dropped => exact htaken
  | command w i hbusy hi => exact blockInv_start hi h.1 rfl (hstopped hbusy).2
  | illegal w hbusy => exact blockInv_rest h.1 rfl rfl (hstopped hbusy).2
  | read a => exact (blockInv_congr rfl rfl rfl rfl rfl).mpr htaken
  | waitDone =>
    obtain ⟨turns, seen, hdone⟩ := waitDone_only (takeTurn s)
    rw [hdone]
    exact (blockInv_congr rfl rfl rfl rfl rfl).mpr htaken
  | reset => exact blockInv_blockReset _

/-- Settles O54: the block is Idle at the exit levels after reset (rule R40). -/
theorem invariantAtReset : Obligations.InvariantAtReset := by
  unfold Obligations.InvariantAtReset
  exact blockInv_rest (.inl rfl) rfl rfl (atRest_iff.mpr (.inl ⟨rfl, rfl⟩))

/-- Settles O55: the host's act keeps the invariant (`blockInv_resumes`), and so does each statement of the sequencer
after it (`blockInv_runStmt`). -/
theorem invariantKept : Obligations.InvariantKept := by
  unfold Obligations.InvariantKept
  intro s t h hstep
  obtain ⟨n, u, hact, rfl⟩ := step_resumes hstep
  exact blockInv_advance n (blockInv_resumes h hact)

/-! ## The settle delays after reset -/

/-- A trace without events has none that comes too early. -/
theorem settledTrace_empty (wanted : Nat) : settledTrace wanted [] := by
  intro before e after h
  simp at h

/-- Settles O56: nothing was issued, the phase is Idle, and no statement remains. -/
theorem settledInvariantAtReset : Obligations.SettledInvariantAtReset := by
  unfold Obligations.SettledInvariantAtReset
  exact ⟨invariantAtReset, settledTrace_empty _, nofun, rfl⟩

end Sys2Proof.Machine
end

section
/-! PROOF. Rule R37's table: each statement writes registers of its own only (`listed`), the statements of a command are
those its row allows, and so every register the row does not list is kept (`10_state.md` rule R37). -/

namespace Sys2Proof.Machine

/-! ## What is kept -/

/-- Every register that the row does not list keeps its value, the phase too. -/
structure Kept (w : WriteSet) (s t : State) : Prop where
  out : w.out = false → t.out = s.out
  dir : w.dir = false → t.dir = s.dir
  phase : w.phase = false → t.phase = s.phase
  inLast : w.inLast = false → t.inLast = s.inLast
  result : w.result = false → t.result = s.result
  sig : ∀ j, w.sig j = false → sigGet t.sig j = sigGet s.sig j
  cur : ∀ f, w.cur f = false → fuseGet t.cur f = fuseGet s.cur f
  ident : w.ident = false → t.ident = s.ident
  dflt : w.dflt = false → t.dflt = s.dflt
  ver : w.ver = false → t.ver = s.ver
  wrout : ∀ f, w.wrout f = false → wroutGet t.wrout f = wroutGet s.wrout f
  verify : w.verify = false → t.wrout.verify = s.wrout.verify

theorem Kept.refl (w : WriteSet) (s : State) : Kept w s s where
  out _ := rfl
  dir _ := rfl
  phase _ := rfl
  inLast _ := rfl
  result _ := rfl
  sig _ _ := rfl
  cur _ _ := rfl
  ident _ := rfl
  dflt _ := rfl
  ver _ := rfl
  wrout _ _ := rfl
  verify _ := rfl

theorem Kept.trans {w : WriteSet} {s t u : State} (h : Kept w s t) (h' : Kept w t u) : Kept w s u where
  out hw := (h'.out hw).trans (h.out hw)
  dir hw := (h'.dir hw).trans (h.dir hw)
  phase hw := (h'.phase hw).trans (h.phase hw)
  inLast hw := (h'.inLast hw).trans (h.inLast hw)
  result hw := (h'.result hw).trans (h.result hw)
  sig j hw := (h'.sig j hw).trans (h.sig j hw)
  cur f hw := (h'.cur f hw).trans (h.cur f hw)
  ident hw := (h'.ident hw).trans (h.ident hw)
  dflt hw := (h'.dflt hw).trans (h.dflt hw)
  ver hw := (h'.ver hw).trans (h.ver hw)
  wrout f hw := (h'.wrout f hw).trans (h.wrout f hw)
  verify hw := (h'.verify hw).trans (h.verify hw)

theorem Kept.keepsUnlisted {w : WriteSet} {s t : State} (h : Kept w s t) : keepsUnlisted w s t :=
  ⟨h.out, h.dir, fun hw => .inl (h.phase hw), h.inLast, h.result, h.sig, h.cur, h.ident, h.dflt, h.ver, h.wrout,
    h.verify⟩

/-- The end of an abort makes the phase Idle besides. -/
theorem Kept.keepsUnlisted_abort {w : WriteSet} {s t : State} (h : Kept w s t) :
    Machine.keepsUnlisted w s (abortFinish t) :=
  ⟨h.out, h.dir, fun _ => .inr ⟨rfl, rfl, rfl⟩, h.inLast, h.result, h.sig, h.cur, h.ident, h.dflt, h.ver, h.wrout,
    h.verify⟩

/-- A register that is listed need not be kept. -/
theorem listed_free {b : Bool} {P : Prop} (h : b = true) : b = false → P := fun h' => by simp [h] at h'

theorem fuseGet_fuseSet (x : FuseSet) (f g : Fuse) (v : Byte) :
    fuseGet (fuseSet x f v) g = if g = f then v else fuseGet x g := by
  cases f <;> cases g <;> rfl

theorem wroutGet_wroutSet (x : WroutReg) (f g : Fuse) (r : WriteOutcome) :
    wroutGet (wroutSet x f r) g = if g = f then r else wroutGet x g := by
  cases f <;> cases g <;> rfl

theorem sigGet_sigSet (x : Signature) (j k : SigIndex) (v : Byte) :
    sigGet (sigSet x j v) k = if k = j then v else sigGet x k := by
  fin_cases j <;> fin_cases k <;> rfl

theorem wroutSet_verify (x : WroutReg) (f : Fuse) (r : WriteOutcome) : (wroutSet x f r).verify = x.verify := by
  cases f <;> rfl

/-- What is listed for one index is not at stake where another index is not listed. -/
theorem ne_of_listed {α : Type} {p : α → Bool} {a b : α} (ha : p a = true) (hb : p b = false) : b ≠ a := by
  rintro rfl
  exact listed_free ha hb

/-! ## The registers a statement writes -/

/-- The row lists what a frame writes (rule R105). -/
def WriteSet.allowsFrames (w : WriteSet) : Bool := w.out && w.inLast && w.result

/-- The row lists every register that a statement, or a procedure it calls, writes. A statement whose transport call
may fail needs `OUT` for the abort's exit SET, and those of a session the phase. -/
def listed (w : WriteSet) : Stmt → Bool
  | .set _ _ => w.out && w.phase
  | .dir _ _ => w.out && w.dir && w.phase
  | .phase _ => w.phase
  | .transfer _ _ | .send _ | .readFuse _ | .readSig _ => w.allowsFrames
  | .driveZero | .driveBit _ | .clock _ | .abortSet => w.out
  | .sampleBit _ | .poll => w.out && w.inLast
  | .frameEnd => w.result
  | .writeFuse f _ | .writeDefault f => w.allowsFrames && w.wrout f
  | .writeExtended => w.allowsFrames && w.wrout .ext
  | .wrote f _ => w.wrout f
  | .storeCur f => w.cur f
  | .storeVer _ | .clearVer _ => w.ver
  | .storeSig j => w.sig j
  | .applyIdentify => w.ident && w.dflt
  | .identifyMatch | .clearMatch => w.ident
  | .identifyDef _ | .clearDef _ => w.dflt
  | .clearWrout => w.wrout .low && w.wrout .high && w.wrout .ext && w.verify
  | .unlessFoundEnd => w.wrout .low && w.wrout .high && w.wrout .ext
  | .verify => w.verify
  | .delay _ | .cycleNo _ | .pollStart | .clearTimeout | .finish _ | .abortEnd => true

/-- From `s` to `t` every register that is not listed is kept, and the statements that remain write listed ones. -/
def KeptOn (w : WriteSet) (s t : State) : Prop := Kept w s t ∧ t.pos.all (listed w) = true

theorem KeptOn.after {w : WriteSet} {s t u : State} (h : Kept w s t) (h' : KeptOn w t u) : KeptOn w s u :=
  ⟨h.trans h'.1, h'.2⟩

section
variable {w : WriteSet} {s : State} {rest : List Stmt}

/-- The statements of a frame write what frames write. -/
theorem listed_frameBody (hw : w.allowsFrames = true) : frameBody.all (listed w) = true := by
  simp only [WriteSet.allowsFrames, Bool.and_eq_true] at hw
  obtain ⟨⟨hout, hinLast⟩, hresult⟩ := hw
  simp [frameBody, mainCycle, pulse, listed, hout, hinLast, hresult]

/-- The statements of a write write what frames write, and the byte's field of `WROUT`. -/
theorem listed_writeFuseBody {f : Fuse} (v : Byte) (hw : (w.allowsFrames && w.wrout f) = true) :
    (writeFuseBody f v).all (listed w) = true := by
  simp only [Bool.and_eq_true] at hw
  obtain ⟨hframes, hwrout⟩ := hw
  have hparts := hframes
  simp only [WriteSet.allowsFrames, Bool.and_eq_true] at hparts
  simp [writeFuseBody, pollBody, listed, hframes, hwrout, hparts]

/-- What remains after a timeout writes nothing else. -/
theorem listed_timeoutExit {l : List Stmt} (h : l.all (listed w) = true) : (timeoutExit l).all (listed w) = true := by
  induction l with
  | nil => rfl
  | cons st rest ih =>
    cases st with
    | wrote f r => exact h
    | _ =>
      rw [List.all_cons, Bool.and_eq_true] at h
      exact ih h.2

/-- A procedure's statements come before those that remain. -/
theorem keptOn_call {body : List Stmt} (hbody : body.all (listed w) = true) (hrest : rest.all (listed w) = true) :
    KeptOn w s (call body { s with pos := rest }) :=
  ⟨{ Kept.refl w s with }, by simp [hbody, hrest]⟩

/-- The failure of a call that leads to the abort leaves its exit SET to do. -/
theorem keptOn_abort {t : State} (hout : w.out = true) (h : Kept w s t) : KeptOn w s (raiseFailure .abort t) :=
  ⟨{ h with }, by simp [raiseFailure, listed, hout]⟩

/-- A SET whose failure is the abort's writes `OUT`. -/
theorem keptOn_setLines {l : Lines} (hout : w.out = true) (hrest : rest.all (listed w) = true) :
    KeptOn w s (setLines .abort l { s with pos := rest }) := by
  have hkept : Kept w s { s with out := l } := { Kept.refl w s with out := listed_free hout }
  obtain ⟨-, h⟩ | ⟨-, h⟩ := setLines_cases .abort l { s with pos := rest } <;> rw [h]
  · exact ⟨{ hkept with }, hrest⟩
  · exact keptOn_abort hout { hkept with }

/-- A READ writes `IN_LAST`, and what the statement does with the bit. -/
theorem keptOn_sample {use : Bool → State → State} (hw : (w.out && w.inLast) = true)
    (huse : ∀ b t, t.pos = rest → KeptOn w t (use b t)) :
    KeptOn w s (sample use { s with pos := rest }) := by
  rw [Bool.and_eq_true] at hw
  obtain ⟨hout, hinLast⟩ := hw
  obtain ⟨-, h⟩ | ⟨-, h⟩ := sample_cases use { s with pos := rest } <;> rw [h]
  · refine KeptOn.after ?_ (huse _ _ rfl)
    exact { Kept.refl w s with inLast := listed_free hinLast }
  · exact keptOn_abort hout { Kept.refl w s with }

/-- A poll does nothing with its sample that is not listed. -/
theorem keptOn_pollSample (b : Bool) {t : State} (hw : (w.out && w.inLast) = true)
    (hrest : t.pos.all (listed w) = true) : KeptOn w t (pollSample b t) := by
  obtain ⟨-, h⟩ | ⟨-, -, h⟩ | ⟨-, -, h⟩ := pollSample_cases b t <;> rw [h]
  · exact ⟨Kept.refl w t, hrest⟩
  · exact ⟨{ Kept.refl w t with }, listed_timeoutExit hrest⟩
  · refine ⟨{ Kept.refl w t with }, ?_⟩
    simp only [pollAgain, List.all_append, hrest, Bool.and_true]
    split <;> simpa [listed] using hw

/-- A SET of ENTER or EXIT. -/
theorem keptOn_set {p : OnFail} {l : Lines} (hw : (w.out && w.phase) = true) (hrest : rest.all (listed w) = true) :
    KeptOn w s (runStmt (.set p l) { s with pos := rest }) := by
  rw [Bool.and_eq_true] at hw
  obtain ⟨hout, hphase⟩ := hw
  have hkept : Kept w s { s with out := l } := { Kept.refl w s with out := listed_free hout }
  obtain ⟨-, h⟩ | ⟨-, h⟩ := setLines_cases p l { s with pos := rest } <;> rw [runStmt, h]
  · exact ⟨{ hkept with }, hrest⟩
  · cases p with
    | abort => exact keptOn_abort hout { hkept with }
    | exitFailed => exact ⟨{ hkept with }, rfl⟩
    | unavailable => exact ⟨{ hkept with phase := listed_free hphase }, rfl⟩

/-- A DIR of ENTER. -/
theorem keptOn_dir {p : OnFail} {m : Lines} (hw : (w.out && w.dir && w.phase) = true)
    (hrest : rest.all (listed w) = true) : KeptOn w s (runStmt (.dir p m) { s with pos := rest }) := by
  simp only [Bool.and_eq_true] at hw
  obtain ⟨⟨hout, hdir⟩, hphase⟩ := hw
  have hkept : Kept w s { s with dir := m } := { Kept.refl w s with dir := listed_free hdir }
  obtain ⟨-, h⟩ | ⟨-, h⟩ := dirLines_cases p m { s with pos := rest } <;> rw [runStmt, h]
  · exact ⟨{ hkept with }, hrest⟩
  · cases p with
    | abort => exact keptOn_abort hout { hkept with }
    | exitFailed => exact ⟨{ hkept with }, rfl⟩
    | unavailable => exact ⟨{ hkept with phase := listed_free hphase }, rfl⟩

/-- Every statement but the end of an abort writes listed registers only, where the row lists its own. -/
theorem keptOn_runStmt {st : Stmt} (hst : listed w st = true) (hrest : rest.all (listed w) = true)
    (hne : st ≠ .abortEnd) : KeptOn w s (runStmt st { s with pos := rest }) := by
  cases st with
  | set p l => exact keptOn_set hst hrest
  | dir p m => exact keptOn_dir hst hrest
  | driveZero | driveBit | clock => exact keptOn_setLines hst hrest
  | sampleBit k => exact keptOn_sample hst fun b t hpos => ⟨{ Kept.refl w t with }, hpos ▸ hrest⟩
  | poll => exact keptOn_sample hst fun b t hpos => keptOn_pollSample b hst (hpos ▸ hrest)
  | abortSet => exact ⟨{ Kept.refl w s with out := listed_free hst }, hrest⟩
  | phase q => exact ⟨{ Kept.refl w s with phase := listed_free hst }, hrest⟩
  | frameEnd => exact ⟨{ Kept.refl w s with result := listed_free hst }, hrest⟩
  | transfer d i => exact ⟨{ Kept.refl w s with }, (keptOn_call (s := s) (listed_frameBody hst) hrest).2⟩
  | send f => exact ⟨{ Kept.refl w s with }, (keptOn_call (s := s) (listed_frameBody hst) hrest).2⟩
  | readFuse f => exact keptOn_call (by simpa [readFuseBody, listed] using hst) hrest
  | readSig j => exact keptOn_call (by simpa [readSigBody, listed] using hst) hrest
  | writeFuse f v => exact keptOn_call (listed_writeFuseBody v hst) hrest
  | writeDefault f => exact keptOn_call (listed_writeFuseBody _ hst) hrest
  | writeExtended =>
    refine keptOn_call ?_ hrest
    split
    · simpa [listed] using (Bool.and_eq_true_iff.mp hst).2
    · exact listed_writeFuseBody _ hst
  | wrote f r =>
    exact ⟨{ Kept.refl w s with
      wrout := fun g hg => (wroutGet_wroutSet s.wrout f g r).trans (if_neg (ne_of_listed (p := w.wrout) hst hg))
      verify := fun _ => wroutSet_verify s.wrout f r }, hrest⟩
  | storeCur f =>
    exact ⟨{ Kept.refl w s with
      cur := fun g hg => (fuseGet_fuseSet s.cur f g s.fcR).trans (if_neg (ne_of_listed (p := w.cur) hst hg)) }, hrest⟩
  | storeSig j =>
    exact ⟨{ Kept.refl w s with
      sig := fun k hk => (sigGet_sigSet s.sig j k s.fcR).trans (if_neg (ne_of_listed (p := w.sig) hst hk)) }, hrest⟩
  | storeVer | clearVer => exact ⟨{ Kept.refl w s with ver := listed_free hst }, hrest⟩
  | applyIdentify => exact keptOn_call (by simpa [applyIdentifyBody, listed] using hst) hrest
  | identifyMatch =>
    obtain ⟨m, h⟩ := identifyMatch_only { s with pos := rest }
    rw [runStmt, h]
    exact ⟨{ Kept.refl w s with ident := listed_free hst }, hrest⟩
  | identifyDef f =>
    obtain ⟨v, h⟩ := identifyDef_only f { s with pos := rest }
    rw [runStmt, h]
    exact ⟨{ Kept.refl w s with dflt := listed_free hst }, hrest⟩
  | clearMatch => exact ⟨{ Kept.refl w s with ident := listed_free hst }, hrest⟩
  | clearDef f => exact ⟨{ Kept.refl w s with dflt := listed_free hst }, hrest⟩
  | clearWrout =>
    simp only [listed, Bool.and_eq_true] at hst
    obtain ⟨⟨⟨hlow, hhigh⟩, hext⟩, hverify⟩ := hst
    have hwrout : ∀ f, w.wrout f = true := fun f => by cases f <;> assumption
    exact ⟨{ Kept.refl w s with wrout := fun f => listed_free (hwrout f), verify := listed_free hverify }, hrest⟩
  | unlessFoundEnd =>
    obtain h | h := unlessFoundEnd_cases { s with pos := rest } <;> rw [runStmt, h]
    · exact ⟨{ Kept.refl w s with }, hrest⟩
    · exact ⟨{ Kept.refl w s with }, by simpa [unknownEnd, listed, and_assoc] using hst⟩
  | verify => exact ⟨{ Kept.refl w s with verify := listed_free hst }, hrest⟩
  | finish e => exact ⟨{ Kept.refl w s with }, rfl⟩
  | abortEnd => contradiction
  | delay | cycleNo | pollStart | clearTimeout => exact ⟨{ Kept.refl w s with }, hrest⟩

end

/-! ## Commands -/

/-- The statements of a command write the registers its row lists. -/
theorem listed_commandProgram (p : Params) (i : Instr) : (commandProgram p i).all (listed (writesOf i)) = true := by
  cases i <;> rfl

/-- Where a command begins, no register changes and its statements remain. -/
theorem keptOn_startOf {i : Instr} (s : State) (hi : (commandOf i).isSome) : KeptOn (writesOf i) s (startOf i s) := by
  obtain ⟨c, hc⟩ := Option.isSome_iff_exists.mp hi
  rw [startOf_command hc]
  cases hallowed : allowedIn s.phase i with
  | true =>
    rw [begin_allowed _ hallowed]
    exact ⟨{ Kept.refl _ s with }, listed_commandProgram _ i⟩
  | false =>
    rw [begin_refused _ hallowed]
    exact ⟨{ Kept.refl _ s with }, rfl⟩

/-- From where the registers that are not listed are kept and the statements write listed ones, every advance keeps
them, but for the phase of an abort. -/
theorem keepsUnlisted_advance {w : WriteSet} {s u : State} (n : Nat) (h : KeptOn w s u) :
    keepsUnlisted w s (advance n u) := by
  have hall : KeptOn w s (advance n u) ∨ (keepsUnlisted w s (advance n u) ∧ (advance n u).pos = []) := by
    refine advance_induction (P := fun t => KeptOn w s t ∨ (keepsUnlisted w s t ∧ t.pos = [])) ?_ n u (.inl h)
    rintro st rest t hpos (⟨hkept, hlisted⟩ | ⟨-, hend⟩)
    · rw [hpos, List.all_cons, Bool.and_eq_true] at hlisted
      by_cases hst : st = .abortEnd
      · subst hst
        exact .inr ⟨Kept.keepsUnlisted_abort { hkept with }, rfl⟩
      · exact .inl (.after hkept (keptOn_runStmt hlisted.1 hlisted.2 hst))
    · cases hpos.symm.trans hend
  obtain ⟨hkept, -⟩ | ⟨hkept, -⟩ := hall
  · exact hkept.keepsUnlisted
  · exact hkept

/-- Settles O53: a command begins with statements that write the registers of its row (`keptOn_startOf`), and every
advance from there keeps the others (`keepsUnlisted_advance`). -/
theorem commandsWriteListedRegistersOnly : Obligations.CommandsWriteListedRegistersOnly := by
  unfold Obligations.CommandsWriteListedRegistersOnly
  intro i c s t hc hexec
  rw [exec_advance] at hexec
  cases hexec
  exact keepsUnlisted_advance s.grant (keptOn_startOf s (Option.isSome_iff_exists.mpr ⟨c, hc⟩))

end Sys2Proof.Machine
end

section
/-! PROOF. The host register file: the codes of the status fields, the fields of its bytes, what a read of it depends
on, and its values after reset (`10_state.md` rules R23, R34 to R36, R40; `20_memory.md` rule R52). -/

namespace Sys2Proof.Machine

/-! ## Codes -/

theorem phaseCode_le (p : Phase) : (phaseCode p).toNat ≤ 4 := by cases p <;> decide

theorem errCode_le (e : ErrCode) : (errCode e).toNat ≤ 6 := by cases e <;> decide

theorem verifyCode_ne (v : VerifyOutcome) : verifyCode v ≠ 3 := by cases v <;> decide

/-- Different outcomes of a write have different codes (rule R35). -/
theorem writeCode_inj {r r' : WriteOutcome} : writeCode r = writeCode r' ↔ r = r' := by
  cases r <;> cases r' <;> decide

theorem verifyCode_inj {v v' : VerifyOutcome} : verifyCode v = verifyCode v' ↔ v = v' := by
  cases v <;> cases v' <;> decide

/-- Settles O16: the codes are those of the tables, and no larger one is used. -/
theorem statusCodes : Obligations.StatusCodes := by
  unfold Obligations.StatusCodes
  exact ⟨rfl, rfl, rfl, rfl, rfl, phaseCode_le, rfl, rfl, rfl, rfl, rfl, rfl, rfl, errCode_le, rfl, rfl, rfl, rfl, rfl,
    rfl, rfl, verifyCode_ne⟩

/-! ## The fields of the bytes -/

section
variable (s : State) (m : MatchReg) (x : WroutReg)

theorem statusByte_phase : (statusByte s).extractLsb' 0 3 = phaseCode s.phase := BitVec.extractLsb'_append_eq_right

theorem statusByte_busy : (statusByte s).getLsbD 3 = s.busy := by
  rw [statusByte, BitVec.getLsbD_append, if_neg (by decide), BitVec.getLsbD_append, if_pos (by decide)]
  cases s.busy <;> rfl

theorem statusByte_err : (statusByte s).extractLsb' 4 4 = errCode s.err :=
  (BitVec.extractLsb'_append_eq_of_le (by decide)).trans BitVec.extractLsb'_append_eq_left

theorem matchByte_idx : (matchByte m).extractLsb' 0 4 = m.idx := BitVec.extractLsb'_append_eq_right

theorem matchByte_zero : (matchByte m).extractLsb' 4 2 = 0 :=
  (BitVec.extractLsb'_append_eq_of_le (by decide)).trans BitVec.extractLsb'_append_eq_right

theorem matchByte_found : (matchByte m).getLsbD 6 = m.found := by
  rw [matchByte, BitVec.getLsbD_append, if_neg (by decide), BitVec.getLsbD_append, if_neg (by decide),
    BitVec.getLsbD_append, if_pos (by decide)]
  cases m.found <;> rfl

theorem matchByte_done : (matchByte m).getLsbD 7 = m.done := by
  rw [matchByte, BitVec.getLsbD_append, if_neg (by decide), BitVec.getLsbD_append, if_neg (by decide),
    BitVec.getLsbD_append, if_neg (by decide)]
  cases m.done <;> rfl

theorem wroutByte_low : (wroutByte x).extractLsb' 0 2 = writeCode x.wl := BitVec.extractLsb'_append_eq_right

theorem wroutByte_high : (wroutByte x).extractLsb' 2 2 = writeCode x.wh :=
  (BitVec.extractLsb'_append_eq_of_le (by decide)).trans BitVec.extractLsb'_append_eq_right

theorem wroutByte_ext : (wroutByte x).extractLsb' 4 2 = writeCode x.we :=
  (BitVec.extractLsb'_append_eq_of_le (by decide)).trans <|
    (BitVec.extractLsb'_append_eq_of_le (by decide)).trans BitVec.extractLsb'_append_eq_right

theorem wroutByte_verify : (wroutByte x).extractLsb' 6 2 = verifyCode x.verify :=
  (BitVec.extractLsb'_append_eq_of_le (by decide)).trans <|
    (BitVec.extractLsb'_append_eq_of_le (by decide)).trans BitVec.extractLsb'_append_eq_left

/-- The bits of a mask are the lines it was made of (rule R70). -/
theorem linesMask_bits (l : Lines) :
    (linesMask l).getLsbD 0 = l.din ∧ (linesMask l).getLsbD 1 = l.iin ∧ (linesMask l).getLsbD 2 = l.clk ∧
    (linesMask l).getLsbD 3 = l.rst ∧ (linesMask l).getLsbD 4 = l.dout := by
  obtain ⟨din, iin, clk, rst, dout⟩ := l
  revert din iin clk rst dout
  decide

theorem pinsByte_out {k : Nat} (hk : k < 5) : (pinsByte s).getLsbD k = (linesMask s.out).getLsbD k :=
  BitVec.getLsbD_append.trans (if_pos hk)

theorem pinsByte_zero : (pinsByte s).extractLsb' 5 3 = 0 := BitVec.extractLsb'_append_eq_left

theorem dirinByte_dir {k : Nat} (hk : k < 5) : (dirinByte s).getLsbD k = (linesMask s.dir).getLsbD k :=
  BitVec.getLsbD_append.trans (if_pos hk)

theorem dirinByte_zero : (dirinByte s).extractLsb' 5 2 = 0 :=
  (BitVec.extractLsb'_append_eq_of_le (by decide)).trans BitVec.extractLsb'_append_eq_right

theorem dirinByte_inLast : (dirinByte s).getLsbD 7 = s.inLast := by
  rw [dirinByte, BitVec.getLsbD_append, if_neg (by decide), BitVec.getLsbD_append, if_neg (by decide)]
  cases s.inLast <;> rfl

end

/-- An unmapped address reads 0x00 (rule R52). -/
theorem hostRead_unmapped (s : State) {a : RegAddr} (ha : 0x12 ≤ a.toNat) : hostRead s a = 0 := by
  unfold hostRead
  split
  rotate_right
  · rfl
  all_goals omega

/-- Settles O17: each byte's fields are its registers, and an unmapped address reads 0x00. -/
theorem hostRegisterMap : Obligations.HostRegisterMap := by
  unfold Obligations.HostRegisterMap
  intro s
  obtain ⟨hdin, hiin, hclk, hrst, hdout⟩ := linesMask_bits s.out
  obtain ⟨hdin', hiin', hclk', hrst', hdout'⟩ := linesMask_bits s.dir
  have hwrout {code : BitVec 2} {x : WriteOutcome} (h : code = writeCode x) (r : WriteOutcome) :
      code = writeCode r ↔ x = r := by rw [h, writeCode_inj]
  have hverify (v : VerifyOutcome) : (wroutByte s.wrout).extractLsb' 6 2 = verifyCode v ↔ s.wrout.verify = v := by
    rw [wroutByte_verify, verifyCode_inj]
  refine ⟨statusByte_phase s, statusByte_busy s, statusByte_err s, matchByte_idx _, matchByte_zero _, matchByte_found _,
    matchByte_done _, rfl, rfl, rfl, rfl, rfl, rfl, rfl, rfl, rfl, rfl, rfl, rfl, rfl, wroutByte_low _,
    wroutByte_high _, wroutByte_ext _, wroutByte_verify _, ?_, hverify .notRun, hverify .matched, hverify .mismatch,
    (pinsByte_out s (by decide)).trans hdin, (pinsByte_out s (by decide)).trans hiin,
    (pinsByte_out s (by decide)).trans hclk, (pinsByte_out s (by decide)).trans hrst,
    (pinsByte_out s (by decide)).trans hdout, pinsByte_zero s, (dirinByte_dir s (by decide)).trans hdin',
    (dirinByte_dir s (by decide)).trans hiin', (dirinByte_dir s (by decide)).trans hclk',
    (dirinByte_dir s (by decide)).trans hrst', (dirinByte_dir s (by decide)).trans hdout', dirinByte_zero s,
    dirinByte_inLast s, fun a ha => hostRead_unmapped s ha⟩
  intro f
  cases f with
  | low => exact ⟨hwrout (wroutByte_low _) .notAttempted, hwrout (wroutByte_low _) .done,
      hwrout (wroutByte_low _) .timeout, hwrout (wroutByte_low _) .skipped⟩
  | high => exact ⟨hwrout (wroutByte_high _) .notAttempted, hwrout (wroutByte_high _) .done,
      hwrout (wroutByte_high _) .timeout, hwrout (wroutByte_high _) .skipped⟩
  | ext => exact ⟨hwrout (wroutByte_ext _) .notAttempted, hwrout (wroutByte_ext _) .done,
      hwrout (wroutByte_ext _) .timeout, hwrout (wroutByte_ext _) .skipped⟩

/-! ## What a read depends on -/

/-- The registers the host can read have the same values. -/
structure SameReadable (s t : State) : Prop where
  out : t.out = s.out
  dir : t.dir = s.dir
  inLast : t.inLast = s.inLast
  phase : t.phase = s.phase
  busy : t.busy = s.busy
  err : t.err = s.err
  result : t.result = s.result
  sig : t.sig = s.sig
  cur : t.cur = s.cur
  dflt : t.dflt = s.dflt
  ver : t.ver = s.ver
  ident : t.ident = s.ident
  wrout : t.wrout = s.wrout

/-- A host read depends on the readable registers only. -/
theorem hostRead_congr {s t : State} (h : SameReadable s t) (a : RegAddr) : hostRead t a = hostRead s a := by
  simp only [hostRead, statusByte, pinsByte, dirinByte, h.out, h.dir, h.inLast, h.phase, h.busy, h.err, h.result, h.sig,
    h.cur, h.dflt, h.ver, h.ident, h.wrout]

/-- Settles O20: none of the fields that vary is readable. -/
theorem internalStateNotReadable : Obligations.InternalStateNotReadable := by
  unfold Obligations.InternalStateNotReadable
  intro s d i r k w p b n a x ans m ts g tr sn
  exact hostRead_congr ⟨rfl, rfl, rfl, rfl, rfl, rfl, rfl, rfl, rfl, rfl, rfl, rfl, rfl⟩ a

/-- Settles O18: a host read's turn records the value read, and where it grants no step no readable register
changes. -/
theorem hostReadChangesNothing : Obligations.HostReadChangesNothing := by
  unfold Obligations.HostReadChangesNothing
  intro s a n rest hturns
  have hstep := step_of_read hturns
  refine ⟨hstep, ?_⟩
  rintro rfl
  exact ⟨_, hstep, fun b => hostRead_congr ⟨rfl, rfl, rfl, rfl, rfl, rfl, rfl, rfl, rfl, rfl, rfl, rfl, rfl⟩ b⟩

/-! ## Reset -/

/-- Settles O15: the values of rule R40's table. -/
theorem resetRegisterValues : Obligations.ResetRegisterValues := by
  unfold Obligations.ResetRegisterValues
  have hfuse (f : Fuse) : fuseGet { low := 0, high := 0, ext := 0 } f = 0 := by cases f <;> rfl
  have hsig (j : SigIndex) : sigGet { b0 := 0, b1 := 0, b2 := 0 } j = 0 := by fin_cases j <;> rfl
  exact ⟨rfl, rfl, rfl, rfl, rfl, rfl, rfl, hsig, hfuse, hfuse, hfuse, rfl, rfl, rfl, rfl, rfl⟩

/-- Settles O14: block reset's turn leaves the values after reset (`resetRegisterValues`), and everything around
the block as it was. -/
theorem blockResetSetsRegisters : Obligations.BlockResetSetsRegisters := by
  unfold Obligations.BlockResetSetsRegisters
  intro s n rest hturns
  obtain ⟨hout, hdir, -, -, -, -, -, -, -, -, -, -, hmatch, -, hwrout, -⟩ := resetRegisterValues
  exact ⟨_, step_of_reset hturns, rfl, rfl, rfl, hout, hdir, rfl, rfl, rfl, rfl, rfl, rfl, hmatch, hwrout, rfl, rfl,
    rfl, rfl, rfl, rfl, rfl⟩

end Sys2Proof.Machine
end

section
/-! PROOF. The matcher's index (`43_catalog_workflow.md` rules R160, R162, R163). -/

namespace Sys2Proof.Machine

/-- An entry the scan finds stands in the list, at its index less the one the scan began at. -/
theorem scanFrom_some {g : Signature} {l : List Descriptor} {k j : Nat} {e : Descriptor}
    (h : scanFrom g k l = some (j, e)) : k ≤ j ∧ l[j - k]? = some e := by
  induction l generalizing k with
  | nil => cases h
  | cons x rest ih =>
    unfold scanFrom at h
    split at h
    · cases h
      simp
    · obtain ⟨hle, hget⟩ := ih h
      have hsub : j - k = j - (k + 1) + 1 := by omega
      exact ⟨by omega, by rw [hsub, List.getElem?_cons_succ, hget]⟩

/-- The matcher's index names the matched entry. -/
theorem identify_some {cat : List Descriptor} {g : Signature} {k : Nat} {e : Descriptor}
    (h : identify cat g = some (k, e)) : cat[k]? = some e := by
  unfold identify at h
  split at h
  · cases h
  · exact (scanFrom_some h).2

/-- Settles O44: a catalog has at most 16 entries (`Params.catalogSized_iff`), and the index names one of them. -/
theorem catalogIndexFits : Obligations.CatalogIndexFits := by
  unfold Obligations.CatalogIndexFits
  intro x g k e h
  have hentry := identify_some h
  obtain ⟨hk, -⟩ := List.getElem?_eq_some_iff.mp hentry
  obtain ⟨-, -, -, -, -, -, -, hsize, -, -⟩ := x.params.wf_iff.mp x.ok
  refine ⟨?_, hentry⟩
  rw [BitVec.toNat_ofNat, Nat.mod_eq_of_lt (by omega)]

end Sys2Proof.Machine
end

section
/-! PROOF. A bounded poll ends, whatever the transport answers (`41_fuse_signature_ops.md` rules R126, R128): by
induction on the samples `POLL_LIMIT` still allows. -/

namespace Sys2Proof.Machine

/-- How a poll with the bound `l`, before the statements `p`, has ended in `t` with the events `es`, where it stood at
`s` with `m` samples left. -/
structure PollEnded (l : Nat) (p : List Stmt) (m : Nat) (s t : State) (es : List Event) : Prop where
  trace : t.trace = s.trace ++ es
  reads : (es.map callKind).count .read ≤ m
  delays : (es.map callKind).count .delay < (es.map callKind).count .read
  sets : (es.map callKind).count .set = 0
  dirs : (es.map callKind).count .dir = 0
  counted : t.pollN ≤ l
  ending :
    (t.pos = p ∧ es.getLast? = some (.read (some true))) ∨
    (t.pos = timeoutExit p ∧ es.getLast? = some (.read (some false)) ∧ (es.map callKind).count .read = m ∧
      t.pollN = l ∧ ∀ b, .read (some b) ∈ es → b = false) ∨
    (t.pos = [.abortSet, .abortEnd] ∧ es.getLast? = some (.read none))

/-- The events of one low sample after which the poll goes on: the READ, and a DELAY where there is one. -/
def LowSample (es : List Event) : Prop :=
  es = [.read (some false)] ∨ ∃ micros lasted, es = [.read (some false), .delay micros lasted]

section
variable {s : State} {p : List Stmt} {l : Nat}

/-- A poll that ends at its next sample. -/
theorem pollEnded_one {m : Nat} {t : State} {r : Option Bool} (htrace : t.trace = s.trace ++ [.read r])
    (hcounted : t.pollN ≤ l)
    (hending : (t.pos = p ∧ r = some true) ∨ (t.pos = timeoutExit p ∧ r = some false ∧ m = 0 ∧ t.pollN = l) ∨
      (t.pos = [.abortSet, .abortEnd] ∧ r = none)) :
    PollEnded l p (m + 1) s t [.read r] where
  trace := htrace
  reads := by simp [callKind]
  delays := by simp [callKind]
  sets := rfl
  dirs := rfl
  counted := hcounted
  ending := by
    obtain ⟨hpos, rfl⟩ | ⟨hpos, rfl, rfl, hlimit⟩ | ⟨hpos, rfl⟩ := hending
    · exact .inl ⟨hpos, rfl⟩
    · exact .inr (.inl ⟨hpos, rfl, rfl, hlimit, by simp⟩)
    · exact .inr (.inr ⟨hpos, rfl⟩)

/-- A poll that goes on after a low sample ends as it does from there. -/
theorem PollEnded.after_low {m : Nat} {u t : State} {ds es : List Event} (h : PollEnded l p m u t es)
    (hds : LowSample ds) (htrace : u.trace = s.trace ++ ds) : PollEnded l p (m + 1) s t (ds ++ es) := by
  obtain ⟨hgrown, hreads, hdelays, hsets, hdirs, hcounted, hending⟩ := h
  have hlast {e : Event} (he : es.getLast? = some e) : (ds ++ es).getLast? = some e := by
    rw [List.getLast?_append, he, Option.some_or]
  have hread : ((ds ++ es).map callKind).count .read = (es.map callKind).count .read + 1 := by
    obtain rfl | ⟨a, b, rfl⟩ := hds <;> simp [callKind]
  have hdelay : ((ds ++ es).map callKind).count .delay ≤ (es.map callKind).count .delay + 1 := by
    obtain rfl | ⟨a, b, rfl⟩ := hds <;> simp [callKind]
  refine ⟨by rw [hgrown, htrace, List.append_assoc], by omega, by omega, ?_, ?_, hcounted, ?_⟩
  · obtain rfl | ⟨a, b, rfl⟩ := hds <;> simpa [callKind] using hsets
  · obtain rfl | ⟨a, b, rfl⟩ := hds <;> simpa [callKind] using hdirs
  · obtain ⟨hpos, he⟩ | ⟨hpos, he, hall, hlimit, hlow⟩ | ⟨hpos, he⟩ := hending
    · exact .inl ⟨hpos, hlast he⟩
    · refine .inr (.inl ⟨hpos, hlast he, by omega, hlimit, fun b hb => ?_⟩)
      obtain hb | hb := List.mem_append.mp hb
      · obtain rfl | ⟨x, y, rfl⟩ := hds <;> simpa using hb
      · exact hlow b hb
    · exact .inr (.inr ⟨hpos, hlast he⟩)

/-- The READ of a poll whose call does not fail: what the poll does with the bit is `pollSample`. -/
theorem poll_read_run (hpos : s.pos = .poll :: p) (hok : (answerAt s 0).fails = false) :
    ∃ u, advance 1 s = pollSample (answerAt s 0).level u ∧ u.pos = p ∧ u.pollN = s.pollN ∧ u.setup = s.setup ∧
      u.trace = s.trace ++ [.read (some (answerAt s 0).level)] :=
  ⟨_, (advance_one hpos).trans (sample_ok (s := { s with pos := p }) pollSample hok), rfl, rfl, rfl, rfl⟩

/-- A READ that fails ends the poll in the abort. -/
theorem poll_read_failed_run (hpos : s.pos = .poll :: p) (hfail : (answerAt s 0).fails = true) :
    ∃ t, advance 1 s = t ∧ t.pos = [.abortSet, .abortEnd] ∧ t.pollN = s.pollN ∧ t.trace = s.trace ++ [.read none] :=
  ⟨_, (advance_one hpos).trans (sample_fail (s := { s with pos := p }) pollSample hfail), rfl, rfl, rfl⟩

/-- A poll that goes on takes at most one step to its next sample: the delay's, where there is one. -/
theorem pollAgain_run {interval : Nat} (hpos : s.pos = pollAgain interval ++ p) :
    ∃ n u ds, n ≤ 1 ∧ advance n s = u ∧ u.pos = .poll :: p ∧ u.pollN = s.pollN ∧ u.setup = s.setup ∧
      LowSample (.read (some false) :: ds) ∧ u.trace = s.trace ++ ds := by
  unfold pollAgain at hpos
  split at hpos
  · exact ⟨1, _, _, le_rfl, advance_one hpos, rfl, rfl, rfl, .inr ⟨_, _, rfl⟩, rfl⟩
  · exact ⟨0, s, [], by omega, rfl, hpos, rfl, rfl, .inl rfl, by simp⟩

/-- A poll that may take m + 1 more samples ends within 2 m + 1 steps. -/
theorem poll_ends (m : Nat) {s : State} (hlimit : s.setup.params.pollLimit = some l) (hpos : s.pos = .poll :: p)
    (hcount : s.pollN + (m + 1) = l) :
    ∃ n t es, n ≤ 2 * m + 1 ∧ advance n s = t ∧ PollEnded l p (m + 1) s t es := by
  induction m using Nat.strong_induction_on generalizing s with
  | _ m ih =>
  cases hfail : (answerAt s 0).fails with
  | true =>
    obtain ⟨t, hrun, hend, hcounted, htrace⟩ := poll_read_failed_run hpos hfail
    exact ⟨1, t, _, by omega, hrun, pollEnded_one htrace (by omega) (.inr (.inr ⟨hend, rfl⟩))⟩
  | false =>
  obtain ⟨u, hrun, hrest, hcounted, hsetup, htrace⟩ := poll_read_run hpos hfail
  obtain ⟨hbit, hsample⟩ | ⟨hbit, hbound, hsample⟩ | ⟨hbit, hbound, hsample⟩ :=
    pollSample_cases (answerAt s 0).level u <;> rw [hsample] at hrun <;> rw [hbit] at htrace
  · exact ⟨1, u, _, by omega, hrun, pollEnded_one htrace (by omega) (.inl ⟨hrest, rfl⟩)⟩
  · have hlast : m = 0 := by
      rw [hsetup, hlimit, pollLimitReached, decide_eq_true_eq] at hbound
      omega
    refine ⟨1, _, _, by omega, hrun, pollEnded_one htrace ?_ (.inr (.inl ⟨by rw [hrest], rfl, hlast, ?_⟩))⟩
    · show u.pollN + 1 ≤ l
      omega
    · show u.pollN + 1 = l
      omega
  · have hmore : u.pollN + 1 < l := by
      rw [hsetup, hlimit, pollLimitReached, decide_eq_false_iff_not] at hbound
      omega
    obtain ⟨n, v, ds, hn, hagain, hpos', hcounted', hsetup', hlow, htrace'⟩ :=
      pollAgain_run (s := { u with pollN := u.pollN + 1, pos := pollAgain u.setup.params.pollIntervalUs ++ u.pos })
        (congrArg _ hrest)
    obtain ⟨k, rfl⟩ : ∃ k, m = k + 1 := Nat.exists_eq_succ_of_ne_zero (by omega)
    obtain ⟨n', t, es, hn', hrun', hended⟩ :=
      ih k (by omega) (hsetup' ▸ hsetup ▸ hlimit) hpos' (by rw [hcounted']; simp only; omega)
    refine ⟨1 + (n + n'), t, _, by omega, advance_then hrun (advance_then hagain hrun'), hended.after_low hlow ?_⟩
    rw [htrace']
    simp [htrace]

end

/-- Settles O40: the poll begins with `POLL_N` at 0 and `POLL_LIMIT` samples left (`poll_ends`), at least one, as the
parameters say (`Params.wf_iff`). -/
theorem boundedPollSamples : Obligations.BoundedPollSamples := by
  unfold Obligations.BoundedPollSamples
  intro s p l hlimit hpos
  obtain ⟨-, -, -, hpositive, -⟩ := s.setup.params.wf_iff.mp s.setup.ok
  obtain ⟨m, rfl⟩ : ∃ m, l = m + 1 := Nat.exists_eq_succ_of_ne_zero (by rintro rfl; exact hpositive hlimit)
  obtain ⟨n, t, es, hn, hrun, h⟩ :=
    poll_ends (s := { s with pos := .poll :: p, pollN := 0 }) m hlimit rfl (Nat.zero_add _)
  exact ⟨1 + n, t, es, by omega, advance_then (advance_one hpos) hrun, h.trace, h.reads, h.delays, h.sets, h.dirs,
    h.counted, h.ending⟩

end Sys2Proof.Machine
end

section
/-! PROOF. The trace and the registers of the pins: `OUT`, `DIR` and `IN_LAST` hold what the events leave in them
(`10_state.md` rules R20 to R22; `40_frame_codec.md` rules R100 to R102). -/

namespace Sys2Proof.Machine

/-- The trace grew from `s` to `t`, and the pins' registers are what the new events leave in them. -/
def Follows (s t : State) : Prop :=
  ∃ es, t.trace = s.trace ++ es ∧ t.out = lastSet s.out es ∧ t.dir = lastDir s.dir es ∧
    t.inLast = lastRead s.inLast es

theorem Follows.refl (s : State) : Follows s s := ⟨[], by simp, rfl, rfl, rfl⟩

theorem Follows.trans {s t u : State} (h : Follows s t) (h' : Follows t u) : Follows s u := by
  obtain ⟨es, htrace, hout, hdir, hinLast⟩ := h
  obtain ⟨fs, htrace', hout', hdir', hinLast'⟩ := h'
  refine ⟨es ++ fs, by rw [htrace', htrace, List.append_assoc], ?_, ?_, ?_⟩
  · rw [hout', hout, lastSet, lastSet, lastSet, List.foldl_append]
  · rw [hdir', hdir, lastDir, lastDir, lastDir, List.foldl_append]
  · rw [hinLast', hinLast, lastRead, lastRead, lastRead, List.foldl_append]

/-- Whatever else changes, the trace and the pins' registers follow as before. -/
theorem Follows.congr {s t u : State} (h : Follows s t) (htrace : u.trace = t.trace) (hout : u.out = t.out)
    (hdir : u.dir = t.dir) (hinLast : u.inLast = t.inLast) : Follows s u := by
  rw [Follows, htrace, hout, hdir, hinLast]
  exact h

/-- Nothing is issued, and the pins' registers stay. -/
theorem follows_of_same {s t : State} (htrace : t.trace = s.trace) (hout : t.out = s.out) (hdir : t.dir = s.dir)
    (hinLast : t.inLast = s.inLast) : Follows s t := (Follows.refl s).congr htrace hout hdir hinLast

/-- The failure of a call changes none of the pins' registers, and issues nothing. -/
theorem Follows.raiseFailure {s t : State} (h : Follows s t) (p : OnFail) : Follows s (raiseFailure p t) := by
  cases p <;> exact h.congr rfl rfl rfl rfl

/-- A SET passes its levels, whether or not it fails (rule R100). -/
theorem follows_setLines (p : OnFail) (l : Lines) (s : State) : Follows s (setLines p l s) := by
  have hset (ok : Bool) : Follows s (issue (.set l ok) { s with out := l }) := ⟨[.set l ok], rfl, rfl, rfl, rfl⟩
  obtain ⟨-, h⟩ | ⟨-, h⟩ := setLines_cases p l s <;> rw [h]
  · exact hset true
  · exact (hset false).raiseFailure p

/-- A DIR passes its mask, whether or not it fails (rule R101). -/
theorem follows_dirLines (p : OnFail) (m : Lines) (s : State) : Follows s (dirLines p m s) := by
  have hdir (ok : Bool) : Follows s (issue (.dir m ok) { s with dir := m }) := ⟨[.dir m ok], rfl, rfl, rfl, rfl⟩
  obtain ⟨-, h⟩ | ⟨-, h⟩ := dirLines_cases p m s <;> rw [h]
  · exact hdir true
  · exact (hdir false).raiseFailure p

/-- A READ leaves its bit in `IN_LAST`, and nothing where it fails (rule R102). -/
theorem follows_sample {use : Bool → State → State} (huse : ∀ b t, Follows t (use b t)) (s : State) :
    Follows s (sample use s) := by
  have hread (b : Bool) : Follows s (issue (.read (some b)) { s with inLast := b }) :=
    ⟨[.read (some b)], rfl, rfl, rfl, rfl⟩
  have hfail : Follows s (issue (.read none) s) := ⟨[.read none], rfl, rfl, rfl, rfl⟩
  obtain ⟨-, h⟩ | ⟨-, h⟩ := sample_cases use s <;> rw [h]
  · exact (hread _).trans (huse _ _)
  · exact hfail.raiseFailure .abort

theorem follows_pollSample (b : Bool) (s : State) : Follows s (pollSample b s) := by
  obtain ⟨-, h⟩ | ⟨-, -, h⟩ | ⟨-, -, h⟩ := pollSample_cases b s <;> rw [h] <;> exact follows_of_same rfl rfl rfl rfl

/-- Every statement writes the pins' registers by its event only. -/
theorem follows_runStmt (st : Stmt) (s : State) : Follows s (runStmt st s) := by
  cases st with
  | set p l => exact follows_setLines p l s
  | dir p m => exact follows_dirLines p m s
  | driveZero | driveBit | clock => exact follows_setLines .abort _ s
  | sampleBit k => exact follows_sample (use := takeBit k) (fun b t => follows_of_same rfl rfl rfl rfl) s
  | poll => exact follows_sample follows_pollSample s
  | delay n => exact ⟨[.delay n (n + (answerAt s 0).late)], rfl, rfl, rfl, rfl⟩
  | abortSet => exact ⟨[.set exitLevels (!(answerAt s 0).fails)], rfl, rfl, rfl, rfl⟩
  | identifyMatch =>
    obtain ⟨m, h⟩ := identifyMatch_only s
    rw [runStmt, h]
    exact follows_of_same rfl rfl rfl rfl
  | identifyDef f =>
    obtain ⟨v, h⟩ := identifyDef_only f s
    rw [runStmt, h]
    exact follows_of_same rfl rfl rfl rfl
  | unlessFoundEnd =>
    obtain h | h := unlessFoundEnd_cases s <;> rw [runStmt, h] <;> exact follows_of_same rfl rfl rfl rfl
  | _ => exact follows_of_same rfl rfl rfl rfl

/-- The sequencer writes the pins' registers by its events only. -/
theorem follows_advance (n : Nat) (s : State) : Follows s (advance n s) := by
  refine advance_induction (P := Follows s) ?_ n s (.refl s)
  intro st rest t _ h
  have hpopped : Follows t { t with pos := rest } := follows_of_same rfl rfl rfl rfl
  exact (h.trans hpopped).trans (follows_runStmt st { t with pos := rest })

/-- No act of the host changes the parameters or issues an event, and none but block reset changes a register of the
pins. -/
theorem resumes_pins {s u : State} {a : HostAct} (h : Resumes s a u) :
    u.setup = s.setup ∧ u.trace = s.trace ∧ (a ≠ .reset → u.out = s.out ∧ u.dir = s.dir ∧ u.inLast = s.inLast) := by
  cases h with
  | wait | dropped | illegal | read => exact ⟨rfl, rfl, fun _ => ⟨rfl, rfl, rfl⟩⟩
  | command w i hbusy hi =>
    obtain ⟨c, hc⟩ := Option.isSome_iff_exists.mp hi
    rw [startOf_command hc, begin]
    split <;> exact ⟨rfl, rfl, fun _ => ⟨rfl, rfl, rfl⟩⟩
  | waitDone =>
    obtain ⟨turns, seen, hdone⟩ := waitDone_only (takeTurn s)
    rw [hdone]
    exact ⟨rfl, rfl, fun _ => ⟨rfl, rfl, rfl⟩⟩
  | reset => exact ⟨rfl, rfl, fun h => absurd rfl h⟩

/-- Block reset leaves nothing to do. -/
theorem resumes_reset_pos {s u : State} (h : Resumes s .reset u) : u.pos = [] := by
  cases h
  rfl

/-- Settles O59: the host's act issues nothing (`resumes_pins`), and from there the registers follow the trace
(`follows_advance`); after a block reset nothing remains to do. -/
theorem registersFollowTrace : Obligations.RegistersFollowTrace := by
  unfold Obligations.RegistersFollowTrace
  intro s t hstep
  obtain ⟨n, u, hact, rfl⟩ := step_resumes hstep
  obtain ⟨hsetup, htrace, hpins⟩ := resumes_pins hact
  obtain ⟨hsetup', -⟩ := advance_surroundings n u
  obtain ⟨es, htrace', hout, hdir, hinLast⟩ := follows_advance n u
  refine ⟨hsetup'.trans hsetup, es, by rw [htrace', htrace], fun hne => ?_, fun hreset => ?_⟩
  · obtain ⟨hout0, hdir0, hinLast0⟩ := hpins hne
    rw [← hout0, ← hdir0, ← hinLast0]
    exact ⟨hout, hdir, hinLast⟩
  · rw [hreset] at hact
    rw [advance_idle (resumes_reset_pos hact)] at htrace'
    simpa using htrace'

end Sys2Proof.Machine
end

section
/-! PROOF. EXIT (`42_session.md` rules R143, R148): its one SET, and what is known of the lines after it. -/

namespace Sys2Proof.Machine

/-! ## The lines after a SET that succeeded -/

/-- A SET that succeeds is what the block drives (rule R100). -/
theorem drivenLevels_set (trace : List Event) (l : Lines) : drivenLevels (trace ++ [.set l true]) = some l := by
  simp [drivenLevels]

/-- A SET that succeeds says nothing of the directions. -/
theorem directions_set (trace : List Event) (l : Lines) :
    directions (trace ++ [.set l true]) = directions trace := by
  simp [directions]

section
variable {trace : List Event} {l : Lines}

theorem lineLevel_set_undeclared (h : directions trace = .undeclared) (x : Line) :
    lineLevel (trace ++ [.set l true]) x = none := by
  rw [lineLevel, drivenLevels_set, directions_set, h]

theorem lineLevel_set_suspect (h : directions trace = .suspect) (x : Line) :
    lineLevel (trace ++ [.set l true]) x = if x = .dout then none else some (lineOf l x) := by
  rw [lineLevel, drivenLevels_set, directions_set, h]

theorem lineLevel_set_declared {m : Lines} (h : directions trace = .declared m) (x : Line) :
    lineLevel (trace ++ [.set l true]) x = if lineOf m x then some (lineOf l x) else none := by
  rw [lineLevel, drivenLevels_set, directions_set, h]

end

/-! ## The command -/

/-- The three statements of EXIT, where its SET does not fail. -/
theorem exitProgram_run {s : State} (hok : (answerAt s 0).fails = false) :
    advance 3 { s with pos := exitProgram, timedOut := false } = { drawn 1 s with
      out := exitLevels, phase := .idle, timedOut := false, trace := s.trace ++ [.set exitLevels true]
      err := .ok, busy := false, pos := [] } := by
  have hset := setLines_ok (s := { s with pos := [.phase .idle, .finish .ok], timedOut := false }) .exitFailed
    exitLevels hok
  have hfirst := (advance_one (s := { s with pos := exitProgram, timedOut := false }) rfl).trans hset
  exact advance_then (m := 2) hfirst rfl

/-- Settles O30: EXIT is allowed in Idle and Ready and runs its three statements (`exitProgram_run`); what is known of
the lines follows from the directions known before it. -/
theorem exitCompletes : Obligations.ExitCompletes := by
  unfold Obligations.ExitCompletes
  intro s hphase hok hgrant
  have hallowed : allowedIn s.phase .exit = true := by
    obtain h | h := hphase <;> rw [h] <;> rfl
  have hrun : advance 3 (startOf .exit s) = _ :=
    (congrArg (advance 3) (begin_allowed exitProgram hallowed)).trans (exitProgram_run hok)
  refine ⟨exec_to_end hrun rfl hgrant, fun h => lineLevel_set_undeclared h, ?_⟩
  rintro (h | h | h)
  · simp only [lineLevel_set_suspect h, h]
    exact ⟨rfl, rfl, rfl, rfl, rfl⟩
  · simp only [lineLevel_set_declared h, h]
    exact ⟨rfl, rfl, rfl, rfl, rfl⟩
  · simp only [lineLevel_set_declared h, h]
    exact ⟨rfl, rfl, rfl, rfl, rfl⟩

end Sys2Proof.Machine
end

section
/-! PROOF. The command port (`20_memory.md` rule R53, `60_exceptions.md` rules R200, R202): what a presented word leads to
in a busy block and in one that is not, and the host's turn that presents it. -/

namespace Sys2Proof.Machine

/-- Nothing is queued: a busy block goes on from where it stands (rule R202). -/
theorem presentWord_busy {s : State} (w : CmdWord) (hbusy : s.busy = true) : presentWord w s = .proceed s :=
  if_pos hbusy

/-- A word that decodes is accepted, and its instruction begins (rule R200). -/
theorem presentWord_decodes {s : State} {w : CmdWord} {i : Instr} (hbusy : s.busy = false) (hw : decode w = .ok i) :
    presentWord w s = .instr i (accept w s) := by
  simp [presentWord, hbusy, hw]

section
variable {s : State} {w : CmdWord} {n : Nat} {rest : List Turn} (h : s.turns = { act := .cmd w, grant := n } :: rest)
include h

/-- The turn that presents a word: the word is presented where the turn was taken. -/
theorem fetch_of_cmd : fetch s = presentWord w { s with turns := rest, grant := n } := fetch_of_turns h

/-- A busy block makes the steps the turn grants, whatever the word (rules R53, R202). -/
theorem step_of_cmd_busy (hbusy : s.busy = true) :
    step s = .next (advance n { s with turns := rest, grant := n }) :=
  step_proceed ((fetch_of_cmd h).trans (presentWord_busy w hbusy))

/-- A block that is not busy accepts a word that decodes and runs its instruction (rules R53, R200). -/
theorem step_of_cmd_decodes {i : Instr} (hbusy : s.busy = false) (hw : decode w = .ok i) :
    step s = exec i (accept w { s with turns := rest, grant := n }) := by
  have hfetch : fetch s = .instr i (accept w { s with turns := rest, grant := n }) :=
    (fetch_of_cmd h).trans (presentWord_decodes hbusy hw)
  rw [step, hfetch]

end

/-- Settles O8: the turn that presents a word that decodes is `step_of_cmd_decodes`, and acceptance writes `CMDW`, `ERR`
and `BUSY`. -/
theorem acceptedWordRuns : Obligations.AcceptedWordRuns := by
  unfold Obligations.AcceptedWordRuns
  intro s w n rest i hbusy hturns hw
  exact step_of_cmd_decodes hturns hbusy hw

/-- Settles O11: the turn that presents a word to a busy block is `step_of_cmd_busy`; with no step granted the sequencer
stays where it is. -/
theorem busyBlockDropsWord : Obligations.BusyBlockDropsWord := by
  unfold Obligations.BusyBlockDropsWord
  intro s w n rest hbusy hturns
  have hstep := step_of_cmd_busy hturns hbusy
  refine ⟨hstep, ?_⟩
  rintro rfl
  exact hstep

end Sys2Proof.Machine
end

section
/-! PROOF. Host command words (`30_encoding.md` rules R79 to R84): the fields of a word and the word of its fields, the
decoder and the encoder as inverses, the refused words, and the rows of the opcode table. -/

namespace Sys2Proof.Machine

/-! ## Fields and words -/

/-- The fields of a word that was put together from fields (rule R79). -/
@[simp] theorem fieldsOf_wordOf (f : CmdFields) : fieldsOf (wordOf f) = f := by
  obtain ⟨op, sel, z, a, b⟩ := f
  have skip {n m k l : Nat} {x : BitVec n} {y : BitVec m} (h : m ≤ k) :
      (x ++ y).extractLsb' k l = x.extractLsb' (k - m) l := BitVec.extractLsb'_append_eq_of_le h
  have hb : (op ++ sel ++ z ++ a ++ b).extractLsb' 0 8 = b := BitVec.extractLsb'_append_eq_right
  have ha : (op ++ sel ++ z ++ a ++ b).extractLsb' 8 8 = a :=
    (skip (by decide)).trans BitVec.extractLsb'_append_eq_right
  have hz : (op ++ sel ++ z ++ a ++ b).extractLsb' 16 2 = z :=
    (skip (by decide)).trans <| (skip (by decide)).trans BitVec.extractLsb'_append_eq_right
  have hsel : (op ++ sel ++ z ++ a ++ b).extractLsb' 18 2 = sel :=
    (skip (by decide)).trans <| (skip (by decide)).trans <| (skip (by decide)).trans BitVec.extractLsb'_append_eq_right
  have hop : (op ++ sel ++ z ++ a ++ b).extractLsb' 20 4 = op :=
    (skip (by decide)).trans <| (skip (by decide)).trans <| (skip (by decide)).trans BitVec.extractLsb'_append_eq_left
  simp only [fieldsOf, wordOf, hop, hsel, hz, ha, hb]

/-- A word is put together from its fields (rule R79): no bit is outside them. -/
theorem wordOf_fieldsOf (w : CmdWord) : wordOf (fieldsOf w) = w := by
  have hsel : w.extractLsb' 20 4 ++ w.extractLsb' 18 2 = w.extractLsb' 18 6 :=
    BitVec.extractLsb'_append_extractLsb'_eq_extractLsb' rfl
  have hz : w.extractLsb' 18 6 ++ w.extractLsb' 16 2 = w.extractLsb' 16 8 :=
    BitVec.extractLsb'_append_extractLsb'_eq_extractLsb' rfl
  have ha : w.extractLsb' 16 8 ++ w.extractLsb' 8 8 = w.extractLsb' 8 16 :=
    BitVec.extractLsb'_append_extractLsb'_eq_extractLsb' rfl
  have hb : w.extractLsb' 8 16 ++ w.extractLsb' 0 8 = w.extractLsb' 0 24 :=
    BitVec.extractLsb'_append_extractLsb'_eq_extractLsb' rfl
  simp only [wordOf, fieldsOf, hsel, hz, ha, hb]
  exact BitVec.extractLsb'_eq_self

@[simp] theorem fieldsOf_commandWord (op : BitVec 4) (sel : BitVec 2) (a b : Byte) :
    fieldsOf (commandWord op sel a b) = { op := op, sel := sel, z := 0, a := a, b := b } := fieldsOf_wordOf _

/-- A word with `Z = 0` is the command word of its other fields. -/
theorem eq_commandWord {w : CmdWord} {op : BitVec 4} {sel : BitVec 2} {a b : Byte} (hz : (fieldsOf w).z = 0)
    (hop : (fieldsOf w).op.toNat = op.toNat) (hsel : (fieldsOf w).sel = sel) (ha : (fieldsOf w).a = a)
    (hb : (fieldsOf w).b = b) : w = commandWord op sel a b := by
  rw [← wordOf_fieldsOf w, commandWord, ← BitVec.eq_of_toNat_eq hop, ← hsel, ← ha, ← hb, ← hz]

/-- A command word as the bits of its upper byte, of `A` and of `B` (rule R84). -/
theorem commandWord_eq_or (op : BitVec 4) (sel : BitVec 2) (a b : Byte) :
    commandWord op sel a b =
      (op ++ sel ++ 0#2).zeroExtend 24 <<< 16 ||| a.zeroExtend 24 <<< 8 ||| b.zeroExtend 24 := by
  have h := BitVec.setWidth_append_append_eq_shiftLeft_setWidth_or (w''' := 24) (b := op ++ sel ++ 0#2) (b' := a)
    (b'' := b)
  rw [BitVec.setWidth_eq] at h
  exact h

/-! ## The parts of the decoder -/

theorem bareCommand_ok {f : CmdFields} {i j : Instr} :
    bareCommand f j = .ok i ↔ f.sel = 0 ∧ f.a = 0 ∧ f.b = 0 ∧ j = i := by
  unfold bareCommand
  split_ifs <;> simp_all

theorem bareCommand_error {f : CmdFields} {j : Instr} :
    (∃ r, bareCommand f j = .error r) ↔ f.sel ≠ 0 ∨ f.a ≠ 0 ∨ f.b ≠ 0 := by
  unfold bareCommand
  split_ifs <;> simp_all

theorem selectThree_ok {sel : BitVec 2} {i i0 i1 i2 : Instr} :
    selectThree sel i0 i1 i2 = .ok i ↔ (sel = 0 ∧ i0 = i) ∨ (sel = 1 ∧ i1 = i) ∨ (sel = 2 ∧ i2 = i) := by
  unfold selectThree
  split_ifs <;> simp_all

/-- `SEL = 3` is reserved (rule R80). -/
theorem selectThree_error {sel : BitVec 2} {i0 i1 i2 : Instr} :
    (∃ r, selectThree sel i0 i1 i2 = .error r) ↔ sel = 3 := by
  have hsel : ∀ x : BitVec 2, x = 0 ∨ x = 1 ∨ x = 2 ∨ x = 3 := by decide
  obtain rfl | rfl | rfl | rfl := hsel sel <;> simp [selectThree]

/-! ## Decoding and encoding -/

section
variable {w : CmdWord} {i : Instr} (op : BitVec 4) (hz : (fieldsOf w).z = 0) (hop : (fieldsOf w).op.toNat = op.toNat)
include hz hop

/-- A word that decodes by the row of a command without operands is that command's. -/
theorem commandOf_of_bareCommand {j : Instr} (hj : commandOf j = some (commandWord op 0 0 0))
    (h : bareCommand (fieldsOf w) j = .ok i) : commandOf i = some w := by
  obtain ⟨hsel, ha, hb, rfl⟩ := bareCommand_ok.mp h
  rw [hj, eq_commandWord hz hop hsel ha hb]

/-- A word that decodes by a row with three selectors is the word of the command its `SEL` chooses. -/
theorem commandOf_of_selectThree {a : Byte} (ha : (fieldsOf w).a = a) (hb : (fieldsOf w).b = 0) {i0 i1 i2 : Instr}
    (h0 : commandOf i0 = some (commandWord op 0 a 0)) (h1 : commandOf i1 = some (commandWord op 1 a 0))
    (h2 : commandOf i2 = some (commandWord op 2 a 0)) (h : selectThree (fieldsOf w).sel i0 i1 i2 = .ok i) :
    commandOf i = some w := by
  obtain ⟨hsel, rfl⟩ | ⟨hsel, rfl⟩ | ⟨hsel, rfl⟩ := selectThree_ok.mp h
  · rw [h0, eq_commandWord hz hop hsel ha hb]
  · rw [h1, eq_commandWord hz hop hsel ha hb]
  · rw [h2, eq_commandWord hz hop hsel ha hb]

end

/-- A word that decodes is the word of its instruction, opcode by opcode (rule R81). -/
theorem commandOf_eq_of_decode {w : CmdWord} {i : Instr} (h : decode w = .ok i) : commandOf i = some w := by
  simp only [decode] at h
  split at h
  · cases h
  next hz =>
  rw [ne_eq, not_not] at hz
  split at h
  case h_1 hop => exact commandOf_of_bareCommand 1 hz hop rfl h
  case h_2 hop => exact commandOf_of_bareCommand 2 hz hop rfl h
  case h_3 hop =>
    split_ifs at h with hsel
    cases h
    exact congrArg some (eq_commandWord (op := 3) hz hop (not_not.mp hsel) rfl rfl).symm
  case h_4 hop =>
    split_ifs at h with ha hb
    exact commandOf_of_selectThree 4 hz hop (not_not.mp ha) (not_not.mp hb) rfl rfl rfl h
  case h_5 hop =>
    split_ifs at h with ha hb
    exact commandOf_of_selectThree 5 hz hop (not_not.mp ha) (not_not.mp hb) rfl rfl rfl h
  case h_6 hop =>
    split_ifs at h with hb
    exact commandOf_of_selectThree 6 hz hop rfl (not_not.mp hb) rfl rfl rfl h
  case h_7 hop => exact commandOf_of_bareCommand 7 hz hop rfl h
  case h_8 hop => exact commandOf_of_bareCommand 8 hz hop rfl h
  case h_9 hop => exact commandOf_of_bareCommand 9 hz hop rfl h
  case h_10 => cases h

/-- The word of a command decodes to it, with every operand at every value (rule R80). -/
theorem decode_of_commandOf {i : Instr} {w : CmdWord} (h : commandOf i = some w) : decode w = .ok i := by
  cases i with
  | enter | exit | rdfuseL | rdfuseH | rdfuseE | rdsig0 | rdsig1 | rdsig2 | ident | readall | restore =>
    cases h
    rfl
  | frame d i =>
    obtain rfl := Option.some.inj h
    simp [decode]
  | wrfuseL v | wrfuseH v | wrfuseE v =>
    obtain rfl := Option.some.inj h
    simp [decode, selectThree]
  | _ => cases h

/-- Settles O3: a word that decodes is the word of its instruction (`commandOf_eq_of_decode`), and the word of a
command decodes to it (`decode_of_commandOf`). -/
theorem decodeInvertsEncode : Obligations.DecodeInvertsEncode := by
  unfold Obligations.DecodeInvertsEncode
  exact fun i w => ⟨commandOf_eq_of_decode, decode_of_commandOf⟩

/-! ## Written-out words -/

/-- Settles O1: each word is decoded by evaluation. -/
theorem specWordsDecode : Obligations.SpecWordsDecode := by
  unfold Obligations.SpecWordsDecode
  exact ⟨rfl, rfl, rfl, rfl, rfl, rfl, rfl, rfl, rfl, rfl, rfl, rfl, rfl, rfl, rfl, rfl, rfl, rfl, rfl, rfl⟩

/-- Settles O2: a command's word is the or of its upper byte, `A` and `B`, each at its place (`commandWord_eq_or`). -/
theorem commandWordValues : Obligations.CommandWordValues := by
  unfold Obligations.CommandWordValues
  have hframe (d i : Byte) := congrArg some (commandWord_eq_or 3 0 d i)
  have hwrfuse (sel : BitVec 2) (v : Byte) := congrArg some ((commandWord_eq_or 6 sel v 0).trans BitVec.or_zero)
  exact ⟨rfl, rfl, hframe, rfl, rfl, rfl, rfl, rfl, rfl, fun v => ⟨hwrfuse 0 v, hwrfuse 1 v, hwrfuse 2 v⟩, rfl, rfl,
    rfl, rfl⟩

/-! ## Refused words -/

/-- Rule R82's conditions, in the order of its list. -/
def IllegalFields (f : CmdFields) : Prop :=
  f.op = 0 ∨ 0xA ≤ f.op.toNat ∨ f.z ≠ 0 ∨
  ((f.op = 4 ∨ f.op = 5 ∨ f.op = 6) ∧ f.sel = 3) ∨
  (¬(f.op = 4 ∨ f.op = 5 ∨ f.op = 6) ∧ f.sel ≠ 0) ∨
  (¬(f.op = 3 ∨ f.op = 6) ∧ f.a ≠ 0) ∨
  (f.op ≠ 3 ∧ f.b ≠ 0)

section
variable {f : CmdFields} (hz : f.z = 0)
include hz

/-- Rule R82 for the commands without operands. -/
theorem illegalFields_bare (hop : f.op = 1 ∨ f.op = 2 ∨ f.op = 7 ∨ f.op = 8 ∨ f.op = 9) :
    IllegalFields f ↔ f.sel ≠ 0 ∨ f.a ≠ 0 ∨ f.b ≠ 0 := by
  obtain h | h | h | h | h := hop <;> simp [IllegalFields, h, hz]

/-- Rule R82 for FRAME, which uses `A` and `B`. -/
theorem illegalFields_frame (hop : f.op = 3) : IllegalFields f ↔ f.sel ≠ 0 := by
  simp [IllegalFields, hop, hz]

/-- Rule R82 for RDFUSE and RDSIG, which use `SEL`. -/
theorem illegalFields_read (hop : f.op = 4 ∨ f.op = 5) :
    IllegalFields f ↔ f.a ≠ 0 ∨ f.b ≠ 0 ∨ f.sel = 3 := by
  obtain h | h := hop <;> simp [IllegalFields, h, hz, or_comm, or_left_comm]

/-- Rule R82 for WRFUSE, which uses `SEL` and `A`. -/
theorem illegalFields_write (hop : f.op = 6) : IllegalFields f ↔ f.b ≠ 0 ∨ f.sel = 3 := by
  simp [IllegalFields, hop, hz, or_comm]

end

/-- A test that refuses, before what else may refuse. -/
theorem ite_error_iff {p : Prop} [Decidable p] {r : Reject} {x : Except Reject Instr} :
    (∃ q, (if p then .error r else x) = .error q) ↔ p ∨ ∃ q, x = .error q := by
  split_ifs with h <;> simp [h]

/-- The decoder refuses a word where one of rule R82's conditions holds, opcode by opcode. -/
theorem decode_error_iff (w : CmdWord) : (∃ r, decode w = .error r) ↔ IllegalFields (fieldsOf w) := by
  simp only [decode, ite_error_iff]
  generalize fieldsOf w = f
  by_cases hz : f.z ≠ 0
  · exact iff_of_true (.inl hz) (.inr (.inr (.inl hz)))
  rw [or_iff_right hz]
  rw [ne_eq, not_not] at hz
  have hop {n : Nat} (h : f.op.toNat = n) : f.op = BitVec.ofNat 4 n := by
    rw [← h, BitVec.ofNat_toNat, BitVec.setWidth_eq]
  split
  case h_1 h | h_2 h | h_7 h | h_8 h | h_9 h =>
    rw [bareCommand_error, illegalFields_bare hz (by simp [hop h])]
  case h_3 h => simp only [ite_error_iff, illegalFields_frame hz (hop h), reduceCtorEq, exists_false, or_false]
  case h_4 h | h_5 h =>
    rw [ite_error_iff, ite_error_iff, selectThree_error, illegalFields_read hz (by simp [hop h])]
  case h_6 h => rw [ite_error_iff, selectThree_error, illegalFields_write hz (hop h)]
  case h_10 h1 h2 h3 h4 h5 h6 h7 h8 h9 =>
    refine iff_of_true ⟨_, rfl⟩ ?_
    have hunknown : f.op.toNat = 0 ∨ 0xA ≤ f.op.toNat := by
      simp only [imp_false] at h1 h2 h3 h4 h5 h6 h7 h8 h9
      omega
    exact hunknown.imp hop .inl

/-- Settles O4: the conditions are those of `IllegalFields` (`decode_error_iff`). -/
theorem illegalWordsRefused : Obligations.IllegalWordsRefused := by
  unfold Obligations.IllegalWordsRefused
  exact decode_error_iff

/-! ## The rows of the opcode table -/

/-- The rows of format HOSTCMD are the rows of the commands. -/
theorem mem_hostRows {r : OpcodeRow} : r ∈ hostRows ↔ ∃ i, (commandOf i).isSome ∧ opcodeRow i = r := by
  constructor
  · intro h
    simp only [hostRows, List.mem_cons, List.not_mem_nil, or_false] at h
    obtain rfl | rfl | rfl | rfl | rfl | rfl | rfl | rfl | rfl | rfl | rfl | rfl | rfl | rfl | rfl := h <;>
      exact ⟨_, rfl, rfl⟩
  · rintro ⟨i, hi, rfl⟩
    cases i with
    | enter | exit | frame | rdfuseL | rdfuseH | rdfuseE | rdsig0 | rdsig1 | rdsig2 | wrfuseL | wrfuseH | wrfuseE
    | ident | readall | restore => simp [hostRows, opcodeRow]
    | _ => cases hi

theorem hostRows_nodup : hostRows.Nodup := by decide

/-- The word of a command has the fixed bits of its row. -/
theorem fits_of_commandOf {i : Instr} {w : CmdWord} (h : commandOf i = some w) : (opcodeRow i).fits w.toNat = true := by
  cases i with
  | enter | exit | rdfuseL | rdfuseH | rdfuseE | rdsig0 | rdsig1 | rdsig2 | ident | readall | restore =>
    cases h
    rfl
  | frame d i => exact Option.some.inj h ▸ (Laws.TableRow.frame d i).2
  | wrfuseL v => exact Option.some.inj h ▸ (Laws.TableRow.wrfuseL v).2
  | wrfuseH v => exact Option.some.inj h ▸ (Laws.TableRow.wrfuseH v).2
  | wrfuseE v => exact Option.some.inj h ▸ (Laws.TableRow.wrfuseE v).2
  | _ => cases h

/-- The fixed bits of a row, as bits of the word. -/
theorem and_eq_of_fits {w : CmdWord} {mask pattern : Nat}
    (h : OpcodeRow.fits { nbits := 24, mask := mask, pattern := pattern } w.toNat = true) (hmask : mask < 2 ^ 24) :
    w &&& BitVec.ofNat 24 mask = BitVec.ofNat 24 pattern := by
  have hnat : w.toNat &&& mask = pattern := by simpa [OpcodeRow.fits] using h
  apply BitVec.eq_of_toNat_eq
  have hle : w.toNat &&& mask ≤ mask := Nat.and_le_right
  rw [BitVec.toNat_and, BitVec.toNat_ofNat, BitVec.toNat_ofNat, Nat.mod_eq_of_lt hmask, hnat,
    Nat.mod_eq_of_lt (by omega)]

/-- The fields of a word whose bits of `OP`, `SEL` and `Z` are fixed, and of `A` and `B` those of a mask. -/
theorem fieldsOf_of_and {w : CmdWord} {op : BitVec 4} {sel : BitVec 2} {maskA maskB a b : Byte}
    (h : w &&& wordOf {
        op := BitVec.allOnes 4, sel := BitVec.allOnes 2, z := BitVec.allOnes 2, a := maskA, b := maskB } =
      commandWord op sel a b) :
    (fieldsOf w).op = op ∧ (fieldsOf w).sel = sel ∧ (fieldsOf w).z = 0 ∧ (fieldsOf w).a &&& maskA = a ∧
      (fieldsOf w).b &&& maskB = b := by
  have hand (x : CmdWord) : fieldsOf (w &&& x) = {
      op := (fieldsOf w).op &&& (fieldsOf x).op, sel := (fieldsOf w).sel &&& (fieldsOf x).sel
      z := (fieldsOf w).z &&& (fieldsOf x).z, a := (fieldsOf w).a &&& (fieldsOf x).a
      b := (fieldsOf w).b &&& (fieldsOf x).b } := by
    simp only [fieldsOf, BitVec.extractLsb'_and]
  have hfields := congrArg fieldsOf h
  simp only [hand, fieldsOf_wordOf, fieldsOf_commandWord, BitVec.and_allOnes, CmdFields.mk.injEq] at hfields
  exact hfields

/-- A word with the fixed bits of FRAME's row is a FRAME word. -/
theorem eq_frame_of_and {w : CmdWord} (h : w &&& 0xFF0000#24 = 0x300000#24) :
    w = commandWord 3 0 (fieldsOf w).a (fieldsOf w).b := by
  obtain ⟨hop, hsel, hz, -, -⟩ := fieldsOf_of_and (op := 3) (sel := 0) (maskA := 0) (maskB := 0) (a := 0) (b := 0) h
  exact eq_commandWord hz (congrArg _ hop) hsel rfl rfl

/-- A word with the fixed bits of a row of WRFUSE is a WRFUSE word with that selector. -/
theorem eq_wrfuse_of_and {w : CmdWord} {sel : BitVec 2} (h : w &&& 0xFF00FF#24 = commandWord 6 sel 0 0) :
    w = commandWord 6 sel (fieldsOf w).a 0 := by
  obtain ⟨hop, hsel, hz, -, hb⟩ := fieldsOf_of_and (maskA := 0) (maskB := BitVec.allOnes 8) h
  exact eq_commandWord hz (congrArg _ hop) hsel rfl (BitVec.and_allOnes.symm.trans hb)

/-- A word with the fixed bits of a command's row decodes, to a command of that row. -/
theorem decode_of_fits {i : Instr} {w : CmdWord} (hi : (commandOf i).isSome) (h : (opcodeRow i).fits w.toNat = true) :
    ∃ j, decode w = .ok j ∧ opcodeRow j = opcodeRow i := by
  have hok {j : Instr} {x : CmdWord} (hw : w = x) (hj : commandOf j = some x) : decode w = .ok j :=
    decode_of_commandOf (hw ▸ hj)
  cases i with
  | enter | exit | rdfuseL | rdfuseH | rdfuseE | rdsig0 | rdsig1 | rdsig2 | ident | readall | restore =>
    obtain rfl : w = _ := BitVec.and_allOnes.symm.trans (and_eq_of_fits h (by decide))
    exact ⟨_, rfl, rfl⟩
  | frame d i => exact ⟨.frame _ _, hok (eq_frame_of_and (and_eq_of_fits h (by decide))) rfl, rfl⟩
  | wrfuseL v => exact ⟨.wrfuseL _, hok (eq_wrfuse_of_and (sel := 0) (and_eq_of_fits h (by decide))) rfl, rfl⟩
  | wrfuseH v => exact ⟨.wrfuseH _, hok (eq_wrfuse_of_and (sel := 1) (and_eq_of_fits h (by decide))) rfl, rfl⟩
  | wrfuseE v => exact ⟨.wrfuseE _, hok (eq_wrfuse_of_and (sel := 2) (and_eq_of_fits h (by decide))) rfl, rfl⟩
  | _ => cases hi

/-- Settles O5: a word fits a row exactly where it decodes to a command of that row (`fits_of_commandOf`,
`decode_of_fits`), and no row stands in the table twice. -/
theorem tableRowsPartitionWords : Obligations.TableRowsPartitionWords := by
  unfold Obligations.TableRowsPartitionWords
  intro w
  constructor
  · intro i hdecode
    have hcommand := commandOf_eq_of_decode hdecode
    have hmem : opcodeRow i ∈ hostRows := mem_hostRows.mpr ⟨i, by simp [hcommand], rfl⟩
    have hfits : ∀ r ∈ hostRows, r.fits w.toNat = (r == opcodeRow i) := by
      intro r hr
      obtain ⟨j, hj, rfl⟩ := mem_hostRows.mp hr
      rw [Bool.eq_iff_iff, beq_iff_eq]
      constructor
      · intro h
        obtain ⟨k, hk, hrow⟩ := decode_of_fits hj h
        rw [← hrow, Except.ok.inj (hk.symm.trans hdecode)]
      · intro h
        rw [h]
        exact fits_of_commandOf hcommand
    rw [List.filter_congr hfits, List.filter_beq, List.count_eq_one_of_mem hostRows_nodup hmem, List.replicate_one]
  · intro q hdecode
    rw [List.filter_eq_nil_iff]
    intro r hr hfits
    obtain ⟨j, hj, rfl⟩ := mem_hostRows.mp hr
    obtain ⟨k, hk, -⟩ := decode_of_fits hj hfits
    cases hk.symm.trans hdecode

end Sys2Proof.Machine
end

section
/-! PROOF. Frame constants (`30_encoding.md` rules R74 to R78): their bytes, and the names their keys stand for. -/

namespace Sys2Proof.Machine

/-- Settles O7: the pairs of the tables. -/
theorem frameConstantPairs : Obligations.FrameConstantPairs := by
  unfold Obligations.FrameConstantPairs
  exact ⟨rfl, rfl, rfl, fun _ => rfl, rfl, rfl, rfl, rfl, rfl, rfl, rfl, rfl, rfl, rfl, rfl, rfl, rfl, rfl, rfl, rfl,
    rfl, rfl⟩

/-- The bits of a frame constant's instruction are its key (rule R75). -/
theorem encode_frameInstr (f : FrameName) : encode (frameInstr f) = frameCode f := by
  cases f with
  | sigSelect j => fin_cases j <;> rfl
  | fuseSelect s | fuseShift s | writeStrobeA s | writeStrobeB s => cases s <;> rfl
  | _ => rfl

/-- An instruction whose bits are a key is a frame constant with that key. -/
theorem frameCode_of_encode {i : Instr} {key : FrameKey} (h : encode i = .frame key) :
    ∃ f, frameCode f = .frame key := by
  cases i with
  | enter | exit | frame | rdfuseL | rdfuseH | rdfuseE | rdsig0 | rdsig1 | rdsig2 | wrfuseL | wrfuseH | wrfuseE | ident
  | readall | restore => cases h
  | _ => exact ⟨_, h⟩

/-- A key is made of its two bytes (rule R74). -/
theorem keyOf_bytes (key : FrameKey) : keyOf (key.extractLsb' 8 8) (key.extractLsb' 0 8) = key :=
  (BitVec.extractLsb'_append_extractLsb'_eq_extractLsb' rfl).trans BitVec.extractLsb'_eq_self

/-- What a test answers, where it answers with a value. -/
theorem ite_ok_iff {α : Type} {p : Prop} [Decidable p] {x y : Except Reject α} {a : α} :
    (if p then x else y) = .ok a ↔ (p ∧ x = .ok a) ∨ (¬p ∧ y = .ok a) := by
  by_cases hp : p <;> simp [hp]

/-- Every key that decodes has its constant's bytes: the cases are LOAD_DATA, the frames with the instruction byte 0x4C,
those with 0x0C, and those with the data byte 0x00. -/
theorem frameBytes_of_decodeFrame {f : FrameName} {key : FrameKey} (h : decodeFrame key = .ok f) :
    frameBytes f = (key.extractLsb' 8 8, key.extractLsb' 0 8) := by
  unfold decodeFrame at h
  dsimp only at h
  generalize key.extractLsb' 8 8 = d, key.extractLsb' 0 8 = i at h ⊢
  simp only [↓ite_ok_iff, Except.ok.injEq, reduceCtorEq, and_false, or_false, false_or] at h
  obtain ⟨rfl, rfl⟩ | ⟨-, ⟨rfl, h⟩ | ⟨-, ⟨rfl, h⟩ | ⟨-, hd, h⟩⟩⟩ := h
  · rfl
  · obtain ⟨rfl, rfl⟩ | ⟨-, ⟨rfl, rfl⟩ | ⟨-, ⟨rfl, rfl⟩ | ⟨-, rfl, rfl⟩⟩⟩ := h <;> rfl
  · obtain ⟨rfl, rfl⟩ | ⟨-, ⟨rfl, rfl⟩ | ⟨-, rfl, rfl⟩⟩ := h <;> rfl
  · obtain rfl := not_not.mp hd
    obtain ⟨rfl, rfl⟩ | ⟨-, ⟨rfl, rfl⟩ | ⟨-, ⟨rfl, rfl⟩ | ⟨-, ⟨rfl, rfl⟩ | ⟨-, ⟨rfl, rfl⟩ | ⟨-, ⟨rfl, rfl⟩ |
      ⟨-, ⟨rfl, rfl⟩ | ⟨-, ⟨rfl, rfl⟩ | ⟨-, ⟨rfl, rfl⟩ | ⟨-, rfl, rfl⟩⟩⟩⟩⟩⟩⟩⟩⟩ := h <;> rfl

/-- Every key that decodes is the key of its constant. -/
theorem frameCode_of_decodeFrame {f : FrameName} {key : FrameKey} (h : decodeFrame key = .ok f) :
    frameCode f = .frame key := by
  rw [frameCode, frameBytes_of_decodeFrame h, keyOf_bytes]

/-- The key of a frame constant decodes, though not always to the same name (rule R78). -/
theorem decodeFrame_of_frameCode {f : FrameName} {key : FrameKey} (h : frameCode f = .frame key) :
    ∃ g, decodeFrame key = .ok g := by
  obtain rfl := Encoded.frame.inj h
  cases f with
  | loadData v =>
    have hi : (keyOf v 0x2C).extractLsb' 0 8 = 0x2C#8 := BitVec.extractLsb'_append_eq_right
    exact ⟨_, if_pos hi⟩
  | sigSelect j => fin_cases j <;> exact ⟨_, rfl⟩
  | fuseSelect s | fuseShift s | writeStrobeA s | writeStrobeB s => cases s <;> exact ⟨_, rfl⟩
  | _ => exact ⟨_, rfl⟩

/-- Settles O6: an instruction with a key is a constant with it, whose key decodes (`decodeFrame_of_frameCode`) to a
constant with the same key (`frameCode_of_decodeFrame`), and so to one with the same bits. -/
theorem frameKeysDecodeBack : Obligations.FrameKeysDecodeBack := by
  unfold Obligations.FrameKeysDecodeBack
  refine ⟨?_, fun f key h => frameCode_of_decodeFrame h⟩
  intro i key hencode
  obtain ⟨f, hf⟩ := frameCode_of_encode hencode
  obtain ⟨g, hg⟩ := decodeFrame_of_frameCode hf
  have hcode := frameCode_of_decodeFrame hg
  exact ⟨g, hg, hcode, by rw [encode_frameInstr, hcode, hencode]⟩

end Sys2Proof.Machine
end

section
/-! PROOF. Frame constants, RDFUSE and WRFUSE to their ends (`40_frame_codec.md` rule R105; `41_fuse_signature_ops.md`
rules R120, R123, R125 to R129). -/

namespace Sys2Proof.Machine

/-- Settles O26: a frame constant begins with its frame (`startOf_frameInstr`), which takes the first steps of the grant
(`send_run`). -/
theorem frameConstantsComplete : Obligations.FrameConstantsComplete := by
  unfold Obligations.FrameConstantsComplete
  intro f s hok hgrant
  have hsplit (t : State) : advance s.grant t = advance (s.grant - frameSteps) (advance frameSteps t) := by
    rw [← advance_add, Nat.add_sub_cancel' hgrant]
  rw [exec_advance, startOf_frameInstr, hsplit, send_run f hok]
  rfl

/-- RDFUSE begins with its statements in Ready. -/
theorem startOf_rdfuseInstr (f : Fuse) {s : State} (hphase : s.phase = .ready) :
    startOf (rdfuseInstr f) s = { s with pos := rdfuseProgram f, timedOut := false } := by
  have hallowed : allowedIn s.phase (rdfuseInstr f) = true := by rw [hphase]; cases f <;> rfl
  cases f <;> exact begin_allowed _ hallowed

/-- WRFUSE begins with its statements in Ready. -/
theorem startOf_wrfuseInstr (f : Fuse) (v : Byte) {s : State} (hphase : s.phase = .ready) :
    startOf (wrfuseInstr f v) s = { s with pos := wrfuseProgram f v, timedOut := false } := by
  have hallowed : allowedIn s.phase (wrfuseInstr f v) = true := by rw [hphase]; cases f <;> rfl
  cases f <;> exact begin_allowed _ hallowed

/-- The three statements of RDFUSE, where no call fails: three frames, the byte's register and the completion. -/
theorem rdfuseProgram_run {s : State} (f : Fuse) (hok : noFailure 120 s) :
    advance 135 { s with pos := rdfuseProgram f, timedOut := false } = { afterFrames (readFuseFrames f) s with
      cur := fuseSet s.cur f (byteAt s 80), result := byteAt s 80, timedOut := false
      err := .ok, busy := false, pos := [] } := by
  have hread := readCur_run (s := { s with timedOut := false }) (rest := [.finish .ok]) [] f s.cur hok (by decide)
  have hrun := advance_then hread (advance_one (st := .finish .ok) (rest := []) rfl)
  have hresult : (afterFrames (readFuseFrames f) s).result = byteAt s 80 := by
    cases f <;> exact afterFrames_result [_, _] _ s
  have hframes : afterFrames (readFuseFrames f) { s with timedOut := false } =
      { afterFrames (readFuseFrames f) s with timedOut := false } := by cases f <;> rfl
  refine Eq.trans hrun ?_
  rw [List.nil_append, hframes]
  simp only [runStmt, outcomeOf, complete, hresult]
  rfl

/-- Settles O33: in Ready RDFUSE runs its three statements (`rdfuseProgram_run`). -/
theorem rdfuseCompletes : Obligations.RdfuseCompletes := by
  unfold Obligations.RdfuseCompletes
  intro f s hphase hok hgrant
  have hrun := (congrArg (advance 135) (startOf_rdfuseInstr f hphase)).trans (rdfuseProgram_run f hok)
  exact exec_to_end hrun rfl hgrant

/-- The two statements of WRFUSE: the write, whichever way it ends, and the completion, which finds the timeout. -/
theorem wrfuseProgram_run {u : State} (f : Fuse) (v : Byte) (w : WriteRun) (ht : u.timedOut = false)
    (hruns : writeRuns f v w u) :
    advance (writeSteps f v w u + 1) { u with pos := wrfuseProgram f v } = { afterWrite f v w u with
      err := if writeOutcome w = .timeout then .writeTimeout else .ok, busy := false, pos := [] } := by
  have hwrite := writeFuse_run (st := .writeFuse f v) (rest := [.finish .written]) f v w rfl hruns
  obtain ⟨-, htimedOut, -⟩ := afterWrite_registers f v w u
  have hout : outcomeOf .written { afterWrite f v w u with pos := [] } =
      if writeOutcome w = .timeout then .writeTimeout else .ok := by
    simp [outcomeOf, htimedOut, ht]
  rw [← hout]
  exact advance_then hwrite (advance_one (st := .finish .written) (rest := []) rfl)

/-- Settles O35: in Ready WRFUSE runs its two statements (`wrfuseProgram_run`), and the registers are those a write
leaves (`afterWrite_registers`). -/
theorem wrfuseCompletes : Obligations.WrfuseCompletes := by
  unfold Obligations.WrfuseCompletes
  intro f v w s u hphase hruns hgrant
  have hrun := (congrArg (advance _) (startOf_wrfuseInstr f v hphase)).trans (wrfuseProgram_run f v w rfl hruns)
  obtain ⟨hwrout, -, hout, hdir, hkept, hcur, hver, hsig, hdflt, hident, -⟩ := afterWrite_registers f v w u
  exact ⟨_, exec_to_end hrun rfl hgrant, rfl, hwrout, hout, hdir, hkept.trans hphase, hcur, hver, hsig, hdflt, hident⟩

end Sys2Proof.Machine
end

section
/-! PROOF. WAIT (`30_encoding.md` rule R85). -/

namespace Sys2Proof.Machine

/-- WAIT reads STATUS, and stays the host's next turn while the block is busy (rule R85). -/
theorem waitDone_eq (s : State) : waitDone s = { s with
    turns := if s.busy then { act := .waitDone, grant := s.grant } :: s.turns else s.turns
    seen := s.seen ++ [(0x00, hostRead s 0x00)] } := by
  cases h : s.busy <;> simp [waitDone, noteRead, h, hostRead, statusByte]

/-- Settles O19: WAIT's turn is taken, and then WAIT (`waitDone_eq`) puts the same turn back while the block is
busy. -/
theorem waitRepeatsUntilNotBusy : Obligations.WaitRepeatsUntilNotBusy := by
  unfold Obligations.WaitRepeatsUntilNotBusy
  intro s n rest hturns
  rw [step_proceed (fetch_of_turns hturns), waitDone_eq, hturns]
  rfl

end Sys2Proof.Machine
end

section
/-! PROOF. The events a run issues: one at most for each statement, and no delay that ends early (`40_frame_codec.md`
rules R100 to R103); and what the levels and directions are on the way through a run whose events are known. -/

namespace Sys2Proof.Machine

/-! ## The event of a statement -/

@[simp] theorem raiseFailure_trace (p : OnFail) (s : State) : (raiseFailure p s).trace = s.trace := by cases p <;> rfl

theorem setLines_trace (p : OnFail) (l : Lines) (s : State) :
    ∃ ok, (setLines p l s).trace = s.trace ++ [.set l ok] := by
  obtain ⟨-, h⟩ | ⟨-, h⟩ := setLines_cases p l s
  · exact ⟨true, by rw [h, issue_trace]⟩
  · exact ⟨false, by rw [h, raiseFailure_trace, issue_trace]⟩

theorem dirLines_trace (p : OnFail) (m : Lines) (s : State) :
    ∃ ok, (dirLines p m s).trace = s.trace ++ [.dir m ok] := by
  obtain ⟨-, h⟩ | ⟨-, h⟩ := dirLines_cases p m s
  · exact ⟨true, by rw [h, issue_trace]⟩
  · exact ⟨false, by rw [h, raiseFailure_trace, issue_trace]⟩

theorem sample_trace {use : Bool → State → State} (huse : ∀ b t, (use b t).trace = t.trace) (s : State) :
    ∃ bit, (sample use s).trace = s.trace ++ [.read bit] := by
  obtain ⟨-, h⟩ | ⟨-, h⟩ := sample_cases use s
  · exact ⟨some _, by rw [h, huse, issue_trace]⟩
  · exact ⟨none, by rw [h, raiseFailure_trace, issue_trace]⟩

theorem pollSample_trace (b : Bool) (s : State) : (pollSample b s).trace = s.trace := by
  obtain ⟨-, h⟩ | ⟨-, -, h⟩ | ⟨-, -, h⟩ := pollSample_cases b s <;> rw [h]

/-! ## Delays -/

/-- A delay lasts at least as long as it was asked to (rule R103). -/
def Punctual : Event → Prop
  | .delay n lasted => n ≤ lasted
  | _ => True

/-- A statement issues at most one event, and a delay only as long as it has to be. -/
theorem runStmt_trace (st : Stmt) (s : State) :
    (runStmt st s).trace = s.trace ∨ ∃ e, (runStmt st s).trace = s.trace ++ [e] ∧ Punctual e := by
  cases st with
  | set p l =>
    obtain ⟨ok, h⟩ := setLines_trace p l s
    exact .inr ⟨_, h, trivial⟩
  | dir p m =>
    obtain ⟨ok, h⟩ := dirLines_trace p m s
    exact .inr ⟨_, h, trivial⟩
  | driveZero | driveBit | clock =>
    obtain ⟨ok, h⟩ := setLines_trace .abort _ s
    exact .inr ⟨_, h, trivial⟩
  | sampleBit k =>
    obtain ⟨bit, h⟩ := sample_trace (use := takeBit k) (fun _ _ => rfl) s
    exact .inr ⟨_, h, trivial⟩
  | poll =>
    obtain ⟨bit, h⟩ := sample_trace pollSample_trace s
    exact .inr ⟨_, h, trivial⟩
  | delay n => exact .inr ⟨.delay n (n + (answerAt s 0).late), rfl, Nat.le_add_right _ _⟩
  | abortSet => exact .inr ⟨_, rfl, trivial⟩
  | identifyMatch =>
    obtain ⟨m, h⟩ := identifyMatch_only s
    exact .inl (by rw [runStmt, h])
  | identifyDef f =>
    obtain ⟨v, h⟩ := identifyDef_only f s
    exact .inl (by rw [runStmt, h])
  | unlessFoundEnd => obtain h | h := unlessFoundEnd_cases s <;> exact .inl (by rw [runStmt, h])
  | _ => exact .inl rfl

/-- The sequencer issues no delay that ends early. -/
theorem advance_punctual (n : Nat) (s : State) :
    ∃ es, (advance n s).trace = s.trace ++ es ∧ ∀ e ∈ es, Punctual e := by
  refine advance_induction (P := fun t => ∃ es, t.trace = s.trace ++ es ∧ ∀ e ∈ es, Punctual e) ?_ n s
    ⟨[], by simp, by simp⟩
  rintro st rest t - ⟨es, htrace, hes⟩
  obtain h | ⟨e, h, he⟩ := runStmt_trace st { t with pos := rest }
  · exact ⟨es, h.trans htrace, hes⟩
  · refine ⟨es ++ [e], by rw [h, htrace, List.append_assoc], fun e' he' => ?_⟩
    obtain he' | he' := List.mem_append.mp he'
    · exact hes e' he'
    · exact List.mem_singleton.mp he' ▸ he

/-- Settles O60: the host's act issues nothing (`resumes_pins`), and the sequencer no delay that ends early
(`advance_punctual`). -/
theorem delaysNeverEarly : Obligations.DelaysNeverEarly := by
  unfold Obligations.DelaysNeverEarly
  intro s t hstep
  obtain ⟨n, u, hact, rfl⟩ := step_resumes hstep
  obtain ⟨-, htrace, -⟩ := resumes_pins hact
  obtain ⟨es, htrace', hes⟩ := advance_punctual n u
  exact ⟨es, by rw [htrace', htrace], fun k lasted hmem => hes _ hmem⟩

/-! ## The lines on the way through a run -/

/-- What holds of the levels before the events, and of those of each SET, holds of the levels they leave. -/
theorem lastSet_induction {P : Lines → Prop} {l : Lines} (es : List Event) (h : P l)
    (hes : ∀ m ok, .set m ok ∈ es → P m) : P (lastSet l es) := by
  induction es generalizing l with
  | nil => exact h
  | cons e es ih =>
    have hrest : ∀ m ok, .set m ok ∈ es → P m := fun m ok hm => hes m ok (List.mem_cons_of_mem e hm)
    cases e with
    | set m ok => exact ih (hes m ok List.mem_cons_self) hrest
    | dir | read | delay => exact ih h hrest

/-- Events without a DIR leave the directions. -/
theorem lastDir_of_no_dir {m : Lines} {es : List Event} (hes : ∀ e ∈ es, callKind e ≠ .dir) : lastDir m es = m := by
  induction es with
  | nil => rfl
  | cons e es ih =>
    have hrest := ih fun e' he' => hes e' (List.mem_cons_of_mem e he')
    cases e with
    | dir m' ok => exact absurd rfl (hes _ List.mem_cons_self)
    | set | read | delay => exact hrest

/-- On the way through a run that issues `es`, the first of them were issued, and the lines are what these leave. -/
theorem advance_within {n m : Nat} {s : State} {es : List Event} (hn : n ≤ m)
    (hes : (advance m s).trace = s.trace ++ es) :
    ∃ fs, fs <+: es ∧ (advance n s).out = lastSet s.out fs ∧ (advance n s).dir = lastDir s.dir fs := by
  obtain ⟨fs, hfs, hout, hdir, -⟩ := follows_advance n s
  obtain ⟨gs, hgs, -⟩ := follows_advance (m - n) (advance n s)
  rw [← advance_add, Nat.add_sub_cancel' hn, hes, hfs, List.append_assoc] at hgs
  exact ⟨fs, ⟨gs, (List.append_cancel_left hgs).symm⟩, hout, hdir⟩

/-- A run that issues no SET and no DIR changes no line and no direction on the way. -/
theorem advance_holds_lines {n m : Nat} {s : State} {es : List Event} (hn : n ≤ m)
    (hes : (advance m s).trace = s.trace ++ es) (hkinds : ∀ e ∈ es, callKind e ≠ .set ∧ callKind e ≠ .dir) :
    (advance n s).out = s.out ∧ (advance n s).dir = s.dir := by
  obtain ⟨fs, hfirst, hout, hdir⟩ := advance_within hn hes
  refine ⟨?_, hdir.trans (lastDir_of_no_dir fun e he => (hkinds e (hfirst.subset he)).2)⟩
  rw [hout]
  exact lastSet_induction (P := (· = s.out)) fs rfl fun l ok hset => absurd rfl (hkinds _ (hfirst.subset hset)).1

/-! ## Polls -/

/-- A poll's wait is made of READs and DELAYs. -/
theorem callKind_pollWait {s : State} {k : Nat} {e : Event} (he : e ∈ pollWait s k) :
    callKind e = .read ∨ callKind e = .delay := by
  induction k with
  | zero => cases he
  | succ k ih =>
    obtain he | he := List.mem_append.mp he
    · exact ih he
    · unfold pollLowEvents at he
      split at he
      · obtain rfl | he := List.mem_cons.mp he
        · exact .inl rfl
        · exact .inr (List.mem_singleton.mp he ▸ rfl)
      · exact .inl (List.mem_singleton.mp he ▸ rfl)

/-- A poll issues READs and DELAYs only. -/
theorem afterPoll_trace (r : PollRun) (s : State) :
    ∃ es, (afterPoll r s).trace = s.trace ++ es ∧ ∀ e ∈ es, callKind e = .read ∨ callKind e = .delay := by
  have hwait (k : Nat) (bit : Option Bool) (e : Event) (he : e ∈ pollWait s k ++ [.read bit]) :
      callKind e = .read ∨ callKind e = .delay := by
    obtain he | he := List.mem_append.mp he
    · exact callKind_pollWait he
    · exact .inl (List.mem_singleton.mp he ▸ rfl)
  cases r with
  | ready k => exact ⟨_, rfl, hwait k _⟩
  | timeout k => exact ⟨_, rfl, hwait k _⟩

/-- A poll changes no line and no direction on the way. -/
theorem poll_holds_lines {s : State} {p : List Stmt} {r : PollRun} {n : Nat} (hpos : s.pos = .pollStart :: .poll :: p)
    (hruns : pollRuns r s) (hn : n ≤ pollSteps r s) :
    (advance n s).out = s.out ∧ (advance n s).dir = s.dir := by
  have hrun : advance (pollSteps r s) s = { afterPoll r s with pos := posAfterPoll r p } := by
    rw [← poll_run r hruns, ← hpos]
  obtain ⟨es, htrace, hkinds⟩ := afterPoll_trace r s
  have hes : (advance (pollSteps r s) s).trace = s.trace ++ es := by rw [hrun]; exact htrace
  refine advance_holds_lines hn hes fun e he => ?_
  obtain h | h := hkinds e he <;> rw [h] <;> decide

/-- Settles O39: a poll issues no SET and no DIR (`poll_holds_lines`), and before its first step the frame has left the
lines as it leaves them (`send_run`). -/
theorem pollHoldsLines : Obligations.PollHoldsLines := by
  unfold Obligations.PollHoldsLines
  refine ⟨fun r s p hpos hruns n hn => poll_holds_lines hpos hruns hn, ?_⟩
  intro f r s p u hpos hok hruns n hn
  have hframe : advance frameSteps s = { u with pos := .pollStart :: .poll :: p } := by
    rw [← send_run f hok, ← hpos]
  rw [advance_add, hframe]
  exact poll_holds_lines (s := { u with pos := .pollStart :: .poll :: p }) (r := r) rfl hruns hn

end Sys2Proof.Machine
end

section
/-! PROOF. FRAME (`40_frame_codec.md` rules R104 to R112): the command to its end, the byte and the events of a frame,
the lines on its way, and the abort at a call that fails. -/

namespace Sys2Proof.Machine

/-! ## The command -/

/-- FRAME begins with its statements in Ready. -/
theorem startOf_frame (d i : Byte) {s : State} (hphase : s.phase = .ready) :
    startOf (.frame d i) s = { s with pos := frameProgram d i, timedOut := false } :=
  begin_allowed _ (by rw [hphase]; rfl)

/-- What FRAME leaves (rule R112) where no call fails: what its frame leaves, and the completion. -/
def afterFrameCommand (d i : Byte) (s : State) : State :=
  { afterFrame d i s with timedOut := false, err := .ok, busy := false, pos := [] }

/-- The two statements of FRAME, where no call fails: the frame and the completion. -/
theorem frameProgram_run (d i : Byte) {s : State} (hphase : s.phase = .ready) (hok : noFailure 40 s) :
    advance 45 (startOf (.frame d i) s) = afterFrameCommand d i s := by
  have hframe := frame_run (s := { s with timedOut := false }) (rest := [.finish .ok]) d i hok
  rw [startOf_frame d i hphase]
  exact advance_then hframe (advance_one (st := .finish .ok) (rest := []) rfl)

/-- FRAME completes where the turn grants its steps. -/
theorem execFrame_completes (d i : Byte) {s : State} (hphase : s.phase = .ready) (hok : noFailure 40 s)
    (hgrant : 45 ≤ s.grant) : exec (.frame d i) s = .next (afterFrameCommand d i s) :=
  exec_to_end (frameProgram_run d i hphase hok) rfl hgrant

/-- Settles O21: in Ready FRAME runs its two statements (`frameProgram_run`). -/
theorem frameCommandCompletes : Obligations.FrameCommandCompletes := by
  unfold Obligations.FrameCommandCompletes
  intro d i s hphase hok hgrant
  exact execFrame_completes d i hphase hok hgrant

/-! ## The byte and the events -/

/-- Sample m is bit 7 - m of the byte (rule R107). -/
theorem getLsbD_byteOfSamples (b : Nat → Bool) {m : Nat} (hm : m < 8) : (byteOfSamples b).getLsbD (7 - m) = b m := by
  have hconcat : byteOfSamples b = (((((((BitVec.ofBool (b 0)).concat (b 1)).concat (b 2)).concat (b 3)).concat
    (b 4)).concat (b 5)).concat (b 6)).concat (b 7) := rfl
  rw [hconcat]
  interval_cases m <;> simp only [BitVec.getLsbD_concat] <;> simp

/-- Settles O22: `RESULT` is the byte of the samples, in which the operands do not occur (`getLsbD_byteOfSamples`). -/
theorem frameByteIsItsSamples : Obligations.FrameByteIsItsSamples := by
  unfold Obligations.FrameByteIsItsSamples
  intro d i d' i' s hphase hok hgrant
  refine ⟨_, _, execFrame_completes d i hphase hok hgrant, execFrame_completes d' i' hphase hok hgrant, rfl, ?_⟩
  intro m hm
  have hbit : (byteAt s 0).getLsbD (7 - m) = sampleAt s 0 m := getLsbD_byteOfSamples _ hm
  rwa [sampleAt, Nat.zero_add] at hbit

/-- The calls of a frame, in order: a cycle, eight times a sample and a cycle, a cycle and a pulse. -/
theorem callKind_frameEvents (l : Lines) (d i : Byte) (b : Nat → Bool) :
    (frameEvents l d i b).map callKind =
      List.replicate 3 .set ++ (List.replicate 8 [.read, .set, .set, .set]).flatten ++ List.replicate 5 .set := rfl

/-- A clock cycle raises and lowers the clock once. -/
theorem clock_cycleEvents (l : Lines) (din iin : Bool) (rest : List Event) :
    clockRises false (cycleEvents l din iin ++ rest) = 1 + clockRises false rest ∧
    clockFalls false (cycleEvents l din iin ++ rest) = 1 + clockFalls false rest := by
  simp [cycleEvents, clockRises, clockFalls]

/-- So does a main cycle, which has a READ besides. -/
theorem clock_mainCycleEvents (l : Lines) (d i : Byte) (b : Nat → Bool) (m : Nat) (rest : List Event) :
    clockRises false (mainCycleEvents l d i b m ++ rest) = 1 + clockRises false rest ∧
    clockFalls false (mainCycleEvents l d i b m ++ rest) = 1 + clockFalls false rest :=
  clock_cycleEvents l _ _ rest

/-- The ten cycles and the last pulse of a frame raise and lower the clock eleven times (rule R109). -/
theorem clock_frameEvents (l : Lines) (d i : Byte) (b : Nat → Bool) :
    clockRises false (frameEvents l d i b) = 11 ∧ clockFalls false (frameEvents l d i b) = 11 := by
  simp [frameEvents, List.append_assoc, clock_cycleEvents, clock_mainCycleEvents, clockRises, clockFalls]

/-- Settles O23: the events are those of the frame, whose calls (`callKind_frameEvents`) and pulses
(`clock_frameEvents`) are counted. -/
theorem frameEventOrder : Obligations.FrameEventOrder := by
  unfold Obligations.FrameEventOrder
  intro d i s hphase hok hgrant
  have hkinds := callKind_frameEvents s.out d i (sampleAt s 0)
  refine ⟨_, _, execFrame_completes d i hphase hok hgrant, rfl, hkinds, rfl, ?_, ?_, fun _ => clock_frameEvents _ d i _⟩
  · rw [hkinds]; decide
  · rw [hkinds]; decide

/-! ## The lines on the way -/

/-- The events of a clock cycle keep `rst` and the level of `dout`. -/
theorem cycleEvents_keep {l m : Lines} {din iin ok : Bool} (h : .set m ok ∈ cycleEvents l din iin) :
    m.rst = l.rst ∧ m.dout = l.dout := by
  simp only [cycleEvents, List.mem_cons, Event.set.injEq, List.not_mem_nil, or_false] at h
  obtain ⟨rfl, -⟩ | ⟨rfl, -⟩ | ⟨rfl, -⟩ := h <;> exact ⟨rfl, rfl⟩

/-- Every SET of a frame keeps `rst` and the level of `dout` (rule R108). -/
theorem frameEvents_keep {l m : Lines} {d i : Byte} {b : Nat → Bool} {ok : Bool}
    (h : .set m ok ∈ frameEvents l d i b) : m.rst = l.rst ∧ m.dout = l.dout := by
  have hmain {k : Nat} (hk : .set m ok ∈ mainCycleEvents l d i b k) : m.rst = l.rst ∧ m.dout = l.dout := by
    obtain hk | hk := List.mem_cons.mp hk
    · cases hk
    · exact cycleEvents_keep hk
  have hpulse (hp : .set m ok ∈ [Event.set { l with din := false, iin := false, clk := true } true,
      .set { l with din := false, iin := false, clk := false } true]) : m.rst = l.rst ∧ m.dout = l.dout :=
    cycleEvents_keep (List.mem_cons_of_mem _ hp)
  simp only [frameEvents, List.mem_append] at h
  obtain ((((((((((h | h) | h) | h) | h) | h) | h) | h) | h) | h) | h) := h
  · exact cycleEvents_keep h
  iterate 8 exact hmain h
  · exact cycleEvents_keep h
  · exact hpulse h

/-- A frame has no DIR. -/
theorem callKind_ne_dir_of_mem_frameEvents {l : Lines} {d i : Byte} {b : Nat → Bool} {e : Event}
    (h : e ∈ frameEvents l d i b) : callKind e ≠ .dir := by
  have hkind := List.mem_map_of_mem (f := callKind) h
  rw [callKind_frameEvents] at hkind
  intro hdir
  rw [hdir] at hkind
  revert hkind
  decide

/-- Settles O24: on its way the command has issued the first of the frame's events (`advance_within`), which keep the
lines in question; with 45 steps it has completed. -/
theorem frameKeepsResetAndDirections : Obligations.FrameKeepsResetAndDirections := by
  unfold Obligations.FrameKeepsResetAndDirections
  intro d i s n hphase hok
  set u := startOf (.frame d i) { s with grant := n } with hu
  have hstart : u.out = s.out ∧ u.dir = s.dir ∧ u.trace = s.trace := by
    rw [hu, startOf_frame d i (s := { s with grant := n }) hphase]
    exact ⟨rfl, rfl, rfl⟩
  obtain ⟨hout0, hdir0, htrace0⟩ := hstart
  have hend {m : Nat} (hm : 45 ≤ m) : advance m u = afterFrameCommand d i { s with grant := n } :=
    advance_to_end (frameProgram_run d i (s := { s with grant := n }) hphase hok) rfl hm
  have htrace : (advance (n + 45) u).trace = u.trace ++ frameEvents s.out d i (sampleAt s 0) := by
    rw [hend (Nat.le_add_left 45 n), htrace0]
    rfl
  obtain ⟨es, hfirst, hout, hdir⟩ := advance_within (Nat.le_add_right n 45) htrace
  rw [hout0] at hout
  have hkeep : (lastSet s.out es).rst = s.out.rst ∧ (lastSet s.out es).dout = s.out.dout :=
    lastSet_induction (P := fun l => l.rst = s.out.rst ∧ l.dout = s.out.dout) es ⟨rfl, rfl⟩
      fun m ok hset => frameEvents_keep (hfirst.subset hset)
  rw [← hout] at hkeep
  have hdirs : lastDir u.dir es = u.dir :=
    lastDir_of_no_dir fun e he => callKind_ne_dir_of_mem_frameEvents (hfirst.subset he)
  refine ⟨advance n u, exec_advance _ _, hkeep.1, hkeep.2, hdir.trans (hdirs.trans hdir0), fun hn => ?_⟩
  rw [hend hn]
  exact ⟨rfl, rfl, rfl, rfl⟩

end Sys2Proof.Machine
end

section
/-! PROOF. A frame whose call fails (`40_frame_codec.md` rule R110; `60_exceptions.md` rules R192, R193): the calls of a
list of the codec's statements, the run to the call that fails, and the abort after it. -/

namespace Sys2Proof.Machine

/-! ## Groups of registers that are kept -/

theorem Kept.sig_eq {w : WriteSet} {s t : State} (h : Kept w s t) (hw : ∀ j, w.sig j = false) : t.sig = s.sig :=
  (Signature.mk.injEq ..).mpr ⟨h.sig 0 (hw 0), h.sig 1 (hw 1), h.sig 2 (hw 2)⟩

theorem Kept.cur_eq {w : WriteSet} {s t : State} (h : Kept w s t) (hw : ∀ f, w.cur f = false) : t.cur = s.cur :=
  (FuseSet.mk.injEq ..).mpr ⟨h.cur .low (hw _), h.cur .high (hw _), h.cur .ext (hw _)⟩

theorem Kept.wrout_eq {w : WriteSet} {s t : State} (h : Kept w s t) (hw : ∀ f, w.wrout f = false)
    (hverify : w.verify = false) : t.wrout = s.wrout :=
  (WroutReg.mk.injEq ..).mpr ⟨h.wrout .low (hw _), h.wrout .high (hw _), h.wrout .ext (hw _), h.verify hverify⟩

/-! ## The calls of the codec's statements -/

/-- The statements of a frame that make its calls or count its cycles, which are all but its return. -/
def isCodecStmt : Stmt → Bool
  | .driveZero | .driveBit _ | .clock _ | .sampleBit _ | .cycleNo _ => true
  | _ => false

/-- The event of a statement of the codec whose call succeeds, for the latched bytes, the levels of the lines and the bit
a sample returns. -/
def codecEvent (d i : Byte) (l : Lines) (bit : Bool) : Stmt → Option Event
  | .driveZero => some (.set { l with din := false, iin := false, clk := false } true)
  | .driveBit k => some (.set { l with din := d.getLsbD k.val, iin := i.getLsbD k.val, clk := false } true)
  | .clock c => some (.set { l with clk := c } true)
  | .sampleBit _ => some (.read (some bit))
  | _ => none

/-- The events of statements of the codec whose calls succeed, where call j returns the bit `bits j`. -/
def codecEvents (d i : Byte) : (Nat → Bool) → Lines → List Stmt → List Event
  | _, _, [] => []
  | bits, l, st :: rest =>
    match codecEvent d i l (bits 0) st with
    | some e => e :: codecEvents d i (fun j => bits (1 + j)) (lastSet l [e]) rest
    | none => codecEvents d i bits l rest

/-- The events the statements of the codec are going to issue from a state on. -/
def eventsFrom (s : State) (l : List Stmt) : List Event :=
  codecEvents s.fcD s.fcI (fun j => (answerAt s j).level) s.out l

/-- The registers the codec's statements write, beside the codec's own. -/
def pinWrites : WriteSet := { out := true, inLast := true }

/-- A call of the codec from `s` to `t`, recorded as the event `e`: it takes one answer, `p` remains, and every register
but those of the pins and the codec is kept. -/
structure Called (e : Event) (p : List Stmt) (s t : State) : Prop where
  trace : t.trace = s.trace ++ [e]
  answers : ∀ j, answerAt t j = answerAt s (1 + j)
  pos : t.pos = p
  kept : Kept pinWrites s t

/-- A call of the codec that succeeded: the bytes stay latched, and the lines are as the event leaves them. -/
structure CalledOk (e : Event) (p : List Stmt) (s t : State) : Prop extends Called e p s t where
  out : t.out = lastSet s.out [e]
  fcD : t.fcD = s.fcD
  fcI : t.fcI = s.fcI

section
variable {s : State} {st : Stmt} {e : Event} {rest : List Stmt}

theorem calledOk_setLines {l : Lines} (hok : (answerAt s 0).fails = false) :
    CalledOk (.set l true) rest s (setLines .abort l { s with pos := rest }) := by
  rw [setLines_ok (s := { s with pos := rest }) .abort l hok]
  exact {
    trace := rfl, answers := answerAt_issue (.set l true) (s := s), pos := rfl
    kept := { Kept.refl pinWrites s with out := listed_free rfl }
    out := rfl, fcD := rfl, fcI := rfl }

theorem called_setLines_failed {l : Lines} (hfail : (answerAt s 0).fails = true) :
    Called (.set l false) [.abortSet, .abortEnd] s (setLines .abort l { s with pos := rest }) := by
  rw [setLines_fail (s := { s with pos := rest }) .abort l hfail]
  exact {
    trace := rfl, answers := answerAt_issue (.set l false) (s := s), pos := rfl
    kept := { Kept.refl pinWrites s with out := listed_free rfl } }

/-- A call of the codec that does not fail. -/
theorem runStmt_calledOk (he : codecEvent s.fcD s.fcI s.out (answerAt s 0).level st = some e)
    (hok : (answerAt s 0).fails = false) : CalledOk e rest s (runStmt st { s with pos := rest }) := by
  cases st with
  | driveZero | driveBit | clock =>
    cases he
    exact calledOk_setLines hok
  | sampleBit k =>
    cases he
    rw [runStmt, sample_ok (s := { s with pos := rest }) _ hok]
    exact {
      trace := rfl, answers := answerAt_issue (.read (some (answerAt s 0).level)) (s := s), pos := rfl
      kept := { Kept.refl pinWrites s with inLast := listed_free rfl }
      out := rfl, fcD := rfl, fcI := rfl }
  | _ => cases he

/-- A call of the codec that fails leads to the abort (rule R110). -/
theorem runStmt_called_failed (he : codecEvent s.fcD s.fcI s.out (answerAt s 0).level st = some e)
    (hfail : (answerAt s 0).fails = true) :
    Called (failed e) [.abortSet, .abortEnd] s (runStmt st { s with pos := rest }) := by
  cases st with
  | driveZero | driveBit | clock =>
    cases he
    exact called_setLines_failed hfail
  | sampleBit k =>
    cases he
    rw [runStmt, sample_fail (s := { s with pos := rest }) _ hfail]
    exact {
      trace := rfl, answers := answerAt_issue (.read none) (s := s), pos := rfl
      kept := { Kept.refl pinWrites s with } }
  | _ => cases he

/-- A statement of the codec without a call counts the cycle. -/
theorem runStmt_uncalled (hst : isCodecStmt st = true)
    (he : codecEvent s.fcD s.fcI s.out (answerAt s 0).level st = none) (t : State) :
    ∃ c, runStmt st t = { t with fcK := c } := by
  cases st with
  | cycleNo c => exact ⟨c, rfl⟩
  | driveZero | driveBit | clock | sampleBit => cases he
  | _ => cases hst

/-! ## The events to come -/

theorem eventsFrom_uncalled (l : List Stmt) (he : codecEvent s.fcD s.fcI s.out (answerAt s 0).level st = none) :
    eventsFrom s (st :: l) = eventsFrom s l := by
  simp only [eventsFrom, codecEvents, he]

theorem eventsFrom_called (l : List Stmt) (he : codecEvent s.fcD s.fcI s.out (answerAt s 0).level st = some e) :
    ∃ es, eventsFrom s (st :: l) = e :: es := by
  simp only [eventsFrom, codecEvents, he]
  exact ⟨_, rfl⟩

theorem eventsFrom_calledOk {t : State} (l : List Stmt)
    (he : codecEvent s.fcD s.fcI s.out (answerAt s 0).level st = some e) (h : CalledOk e rest s t) :
    eventsFrom s (st :: l) = e :: eventsFrom t l := by
  simp only [eventsFrom, codecEvents, he, h.out, h.fcD, h.fcI, h.answers]

end

/-! ## The run to the call that fails -/

/-- The failure of call k, of the calls that would issue `es`, ended the codec's run from `s` in `t`. -/
structure FailedAt (k : Nat) (es : List Event) (s t : State) : Prop where
  trace : t.trace = s.trace ++ es.take k ++ (es.drop k).head?.toList.map failed
  answers : ∀ j, answerAt t j = answerAt s (k + 1 + j)
  pos : t.pos = [.abortSet, .abortEnd]
  kept : Kept pinWrites s t

/-- The first call failed. -/
theorem Called.failedAt {e : Event} {es : List Event} {s t : State} (h : Called (failed e) [.abortSet, .abortEnd] s t) :
    FailedAt 0 (e :: es) s t where
  trace := by simp [h.trace]
  answers j := by rw [h.answers, Nat.zero_add]
  pos := h.pos
  kept := h.kept

/-- A later call failed. -/
theorem Called.then_failedAt {k : Nat} {e : Event} {es : List Event} {p : List Stmt} {s t u : State}
    (hcall : Called e p s t) (h : FailedAt k es t u) : FailedAt (k + 1) (e :: es) s u where
  trace := by simp [h.trace, hcall.trace]
  answers j := by rw [h.answers, hcall.answers]; congr 1; omega
  pos := h.pos
  kept := hcall.kept.trans h.kept

/-- Statements of the codec of which call k fails end there. -/
theorem codec_fails {l rest : List Stmt} {s : State} {k : Nat} (hl : l.all isCodecStmt = true)
    (hpos : s.pos = l ++ rest) (hok : noFailure k s) (hfail : (answerAt s k).fails = true)
    (hk : k < (eventsFrom s l).length) :
    ∃ n t, n ≤ l.length ∧ advance n s = t ∧ FailedAt k (eventsFrom s l) s t := by
  induction l generalizing s k with
  | nil => cases hk
  | cons st l ih =>
  rw [List.all_cons, Bool.and_eq_true] at hl
  obtain ⟨hst, hl⟩ := hl
  have hfirst : advance 1 s = runStmt st { s with pos := l ++ rest } := advance_one hpos
  cases he : codecEvent s.fcD s.fcI s.out (answerAt s 0).level st with
  | none =>
    rw [eventsFrom_uncalled l he] at hk ⊢
    obtain ⟨c, hrun⟩ := runStmt_uncalled hst he { s with pos := l ++ rest }
    obtain ⟨n, t, hn, hadvance, h⟩ := ih (s := { s with pos := l ++ rest, fcK := c }) hl rfl hok hfail hk
    exact ⟨1 + n, t, by rw [List.length_cons]; omega, advance_then (hfirst.trans hrun) hadvance,
      { h with kept := { h.kept with } }⟩
  | some e =>
    cases k with
    | zero =>
      obtain ⟨es, hes⟩ := eventsFrom_called l he
      rw [hes]
      exact ⟨1, _, by simp, hfirst, (runStmt_called_failed he hfail).failedAt⟩
    | succ k =>
      have hcall := runStmt_calledOk (rest := l ++ rest) he (hok 0 (by omega))
      have hanswer (j : Nat) : answerAt (runStmt st { s with pos := l ++ rest }) j = answerAt s (1 + j) := hcall.answers j
      rw [eventsFrom_calledOk l he hcall] at hk ⊢
      obtain ⟨n, t, hn, hadvance, h⟩ := ih (k := k) hl hcall.pos (noFailure_shift hanswer hok (by omega))
        (by rw [hanswer, Nat.add_comm]; exact hfail) (Nat.lt_of_succ_lt_succ hk)
      exact ⟨1 + n, t, by rw [List.length_cons]; omega, advance_then hfirst hadvance, hcall.then_failedAt h⟩

/-! ## The frame -/

/-- The statements of a frame without its return issue the frame's events. -/
theorem eventsFrom_frameBody (d i : Byte) (s : State) (p : List Stmt) :
    eventsFrom (startFrame d i { s with pos := p }) frameBody.dropLast = frameEvents s.out d i (sampleAt s 0) := rfl

/-- FRAME to the call that fails, which is the abort's position. -/
theorem frameProgram_fails (d i : Byte) {s : State} {k : Nat} (hphase : s.phase = .ready) (hk : k < 40)
    (hok : noFailure k s) (hfail : (answerAt s k).fails = true) :
    ∃ n t, n ≤ 43 ∧ advance n (startOf (.frame d i) s) = t ∧
      FailedAt k (frameEvents s.out d i (sampleAt s 0)) s t := by
  set u := startFrame d i { s with pos := [.finish .ok], timedOut := false }
  have hfirst : advance 1 (startOf (.frame d i) s) = u := by
    rw [startOf_frame d i hphase]
    exact advance_one (s := { s with pos := frameProgram d i, timedOut := false }) rfl
  have hevents : eventsFrom u frameBody.dropLast = frameEvents s.out d i (sampleAt s 0) :=
    eventsFrom_frameBody d i { s with timedOut := false } _
  obtain ⟨n, t, hn, hadvance, h⟩ := codec_fails (s := u) (l := frameBody.dropLast) (rest := [.frameEnd, .finish .ok])
    rfl rfl hok hfail (by rw [hevents]; exact hk)
  rw [hevents] at h
  have hlength : frameBody.dropLast.length = 42 := rfl
  exact ⟨1 + n, t, by omega, advance_then hfirst hadvance, { h with kept := { h.kept with } }⟩

/-- Settles O25: the frame runs to the call that fails (`frameProgram_fails`), and the abort's two steps follow
(`abort_run`). -/
theorem frameFailureAborts : Obligations.FrameFailureAborts := by
  unfold Obligations.FrameFailureAborts
  intro d i s k hphase hk hok hfail hgrant
  obtain ⟨n, u, hn, hadvance, h⟩ := frameProgram_fails d i hphase hk hok hfail
  have habort := abort_run (s := u) (n := 0) rfl (by simp) h.pos
  have hexit : answerAt u 0 = answerAt s (k + 1) := h.answers 0
  refine ⟨_, exec_to_end (advance_then hadvance habort) rfl (by omega), ?_, rfl, rfl, rfl, rfl, rfl, h.kept.dir rfl,
    h.kept.result rfl, h.kept.sig_eq fun _ => rfl, h.kept.cur_eq fun _ => rfl, h.kept.dflt rfl, h.kept.ver rfl,
    h.kept.ident rfl, h.kept.wrout_eq (fun _ => rfl) rfl⟩
  rw [← hexit, ← h.trace]

end Sys2Proof.Machine
end

section
/-! PROOF. RDSIG to its end, and the events of the transactions (`41_fuse_signature_ops.md` rules R120, R121, R124 to
R126, R128): how many calls and how many SETs frames, polls and writes add to the trace, and the last event of a
write. -/

namespace Sys2Proof.Machine

/-! ## RDSIG -/

/-- RDSIG begins with its statements in Ready. -/
theorem startOf_rdsigInstr (j : SigIndex) {s : State} (hphase : s.phase = .ready) :
    startOf (rdsigInstr j) s = { s with pos := rdsigProgram j, timedOut := false } := by
  have hallowed : allowedIn s.phase (rdsigInstr j) = true := by rw [hphase]; fin_cases j <;> rfl
  fin_cases j <;> exact begin_allowed _ hallowed

/-- The three statements of RDSIG, where no call fails: four frames, the byte's register and the completion. -/
theorem rdsigProgram_run {s : State} (j : SigIndex) (hok : noFailure 160 s) :
    advance 179 { s with pos := rdsigProgram j, timedOut := false } = { afterFrames (readSigFrames j) s with
      sig := sigSet s.sig j (byteAt s 120), result := byteAt s 120, timedOut := false
      err := .ok, busy := false, pos := [] } := by
  have hread := readSigStore_run (s := { s with timedOut := false }) (rest := [.finish .ok]) [] j s.sig hok (by decide)
  have hrun := advance_then hread (advance_one (st := .finish .ok) (rest := []) rfl)
  have hresult : (afterFrames (readSigFrames j) s).result = byteAt s 120 := afterFrames_result [_, _, _] _ s
  have hframes : afterFrames (readSigFrames j) { s with timedOut := false } =
      { afterFrames (readSigFrames j) s with timedOut := false } := rfl
  refine Eq.trans hrun ?_
  rw [List.nil_append, hframes]
  simp only [runStmt, outcomeOf, complete, hresult]
  rfl

/-- Settles O34: in Ready RDSIG runs its three statements (`rdsigProgram_run`). -/
theorem rdsigCompletes : Obligations.RdsigCompletes := by
  unfold Obligations.RdsigCompletes
  intro j s hphase hok hgrant
  have hrun := (congrArg (advance 179) (startOf_rdsigInstr j hphase)).trans (rdsigProgram_run j hok)
  exact exec_to_end hrun rfl hgrant

/-! ## How a trace grows -/

/-- The second trace is the first one and `calls` more events, of which `sets` are SETs. -/
def TraceGrows (calls sets : Nat) (tr tr' : List Event) : Prop :=
  ∃ es, tr' = tr ++ es ∧ es.length = calls ∧ (es.map callKind).count .set = sets

theorem traceGrows_append (tr es : List Event) : TraceGrows es.length ((es.map callKind).count .set) tr (tr ++ es) :=
  ⟨es, rfl, rfl, rfl⟩

theorem TraceGrows.trans {c c' n n' : Nat} {tr tr' tr'' : List Event} (h : TraceGrows c n tr tr')
    (h' : TraceGrows c' n' tr' tr'') : TraceGrows (c + c') (n + n') tr tr'' := by
  obtain ⟨es, rfl, rfl, rfl⟩ := h
  obtain ⟨es', rfl, rfl, rfl⟩ := h'
  exact ⟨es ++ es', List.append_assoc .., List.length_append, by rw [List.map_append, List.count_append]⟩

/-- A frame makes 40 calls, of which 32 are SETs (rule R109). -/
theorem afterFrame_traceGrows (d i : Byte) (s : State) : TraceGrows 40 32 s.trace (afterFrame d i s).trace :=
  ⟨frameEvents s.out d i (sampleAt s 0), rfl, rfl, by rw [callKind_frameEvents]; decide⟩

/-- Frames sent one after another make as many calls and SETs each. -/
theorem afterFrames_traceGrows (fs : List (Byte × Byte)) (s : State) :
    TraceGrows (40 * fs.length) (32 * fs.length) s.trace (afterFrames fs s).trace := by
  induction fs generalizing s with
  | nil => exact ⟨[], (List.append_nil _).symm, rfl, rfl⟩
  | cons f fs ih =>
    rw [List.length_cons, Nat.mul_succ, Nat.mul_succ, Nat.add_comm _ 40, Nat.add_comm _ 32]
    exact (afterFrame_traceGrows f.1 f.2 s).trans (ih (afterFrame f.1 f.2 s))

/-- A poll's low samples make the calls of their strides, none of them a SET. -/
theorem pollWait_traceGrows (s : State) (k : Nat) (tr : List Event) :
    TraceGrows (pollStride s * k) 0 tr (tr ++ pollWait s k) := by
  refine ⟨_, rfl, ?_, List.count_eq_zero.mpr fun hmem => ?_⟩
  · induction k with
    | zero => rfl
    | succ k ih =>
      have hlow : (pollLowEvents s k).length = pollStride s := by
        unfold pollLowEvents pollStride
        split <;> rfl
      rw [pollWait, List.length_append, ih, hlow, Nat.mul_succ]
  · obtain ⟨e, he, hset⟩ := List.mem_map.mp hmem
    obtain hkind | hkind := callKind_pollWait he <;> rw [hset] at hkind <;> cases hkind

/-- A poll that sees the line high makes one call more, and no SET. -/
theorem afterPoll_ready_traceGrows (k : Nat) (s : State) :
    TraceGrows (pollStride s * k + 1) 0 s.trace (afterPoll (.ready k) s).trace := by
  have htrace : (afterPoll (.ready k) s).trace = s.trace ++ pollWait s k ++ [.read (some true)] :=
    (List.append_assoc ..).symm
  rw [htrace]
  exact (pollWait_traceGrows s k s.trace).trans (traceGrows_append _ [.read (some true)])

/-! ## Writes -/

section
variable (f : Fuse) (v : Byte) (s : State)

/-- A write makes the calls of four frames before its first poll. -/
theorem writeFuseFrames_traceGrows : TraceGrows 160 128 s.trace (afterFrames (writeFuseFrames f v) s).trace := by
  cases f <;> exact afterFrames_traceGrows [_, _, _, _] s

/-- A write whose first poll sees the line high makes the calls of that poll and of a fifth frame before its second. -/
theorem writeEnd_traceGrows {w : WriteRun} {k : Nat} (hw : firstPoll w = .ready k) :
    TraceGrows (160 + (pollStride s * k + 1) + 40) 160 s.trace
      (afterFrame 0x00#8 0x4C#8 (afterFirstPoll f v w s)).trace := by
  have hpoll : TraceGrows (pollStride s * k + 1) 0 (afterFrames (writeFuseFrames f v) s).trace
      (afterFirstPoll f v w s).trace := by
    have hstride : pollStride (afterFrames (writeFuseFrames f v) s) = pollStride s := by
      simp only [pollStride, afterFrames_setup]
    rw [afterFirstPoll, hw, ← hstride]
    exact afterPoll_ready_traceGrows k _
  exact ((writeFuseFrames_traceGrows f v s).trans hpoll).trans (afterFrame_traceGrows _ _ _)

/-- The frames a write sends: the fifth one follows a first poll that did not time out (rules R125, R128). -/
def framesSent : WriteRun → Nat
  | .firstTimeout _ => 4
  | .secondTimeout _ _ | .done _ _ => 5

/-- The last event of a write that times out is its last low sample, and its SETs are those of its frames. -/
theorem afterWrite_timeout_trace {w : WriteRun} (hw : writeOutcome w = .timeout) :
    ∃ es, (afterWrite f v w s).trace = s.trace ++ es ++ [.read (some false)] ∧
      (es.map callKind).count .set = framesSent w * 32 := by
  have hlast (k : Nat) (u : State) :
      (afterPoll (.timeout k) u).trace = u.trace ++ pollWait u k ++ [.read (some false)] := (List.append_assoc ..).symm
  cases w with
  | firstTimeout k =>
    have hfour := writeFuseFrames_traceGrows f v s
    set u := afterFrames (writeFuseFrames f v) s
    obtain ⟨es, htrace, -, hsets⟩ := hfour.trans (pollWait_traceGrows u k u.trace)
    exact ⟨es, (hlast k u).trans (by rw [htrace]), hsets⟩
  | secondTimeout k1 k2 =>
    have hfive := writeEnd_traceGrows f v s (w := .secondTimeout k1 k2) rfl
    set u := afterFrame 0x00#8 0x4C#8 (afterFirstPoll f v (.secondTimeout k1 k2) s)
    obtain ⟨es, htrace, -, hsets⟩ := hfive.trans (pollWait_traceGrows u k2 u.trace)
    exact ⟨es, (hlast k2 u).trans (by rw [htrace]), hsets⟩
  | done k1 k2 => cases hw

/-- A write both of whose polls see the line high at their first sample makes the calls of five frames and two READs. -/
theorem afterWrite_done_traceGrows : TraceGrows 202 160 s.trace (afterWrite f v (.done 0 0) s).trace :=
  (writeEnd_traceGrows f v s (w := .done 0 0) rfl).trans (afterPoll_ready_traceGrows 0 _)

end

/-- Settles O37: the write completes (`wrfuseCompletes`), and its last event is the low sample
(`afterWrite_timeout_trace`). -/
theorem timeoutEndsWrite : Obligations.TimeoutEndsWrite := by
  unfold Obligations.TimeoutEndsWrite
  intro f v w s u hphase hruns hgrant hw
  obtain ⟨t, hexec, rfl, hwrout, -, -, hready, -⟩ := wrfuseCompletes f v w s hphase hruns hgrant
  obtain ⟨es, htrace, hsets⟩ := afterWrite_timeout_trace f v u hw
  refine ⟨_, es, hexec, htrace, hsets.trans ?_, ?_, if_pos hw, hready⟩
  · cases w <;> rfl
  · rw [hwrout, wroutGet_wroutSet, if_pos rfl, hw]

/-! ## The counts -/

/-- A poll whose first sample is high ends with it, since `POLL_LIMIT` allows one sample (`Params.wf_iff`). -/
theorem pollRuns_ready_zero {s : State} (hok : (answerAt s 0).fails = false) (hhigh : (answerAt s 0).level = true) :
    pollRuns (.ready 0) s := by
  obtain ⟨-, -, -, hpositive, -⟩ := s.setup.params.wf_iff.mp s.setup.ok
  refine ⟨fun j hj => absurd hj (Nat.not_lt_zero j), ⟨hok, hhigh⟩, fun l hl => Nat.pos_of_ne_zero ?_⟩
  rintro rfl
  exact hpositive hl

/-- Where calls 160 and 201 are high samples and no call fails, a write sees the line high at the first sample of
each of its polls. -/
theorem writeRuns_done_zero {s : State} (f : Fuse) (v : Byte) (hok : noFailure 202 s)
    (hfirst : (answerAt s 160).level = true) (hsecond : (answerAt s 201).level = true) :
    writeRuns f v (.done 0 0) s := by
  have hframes (j : Nat) : answerAt (afterFrames (writeFuseFrames f v) s) j = answerAt s (160 + j) := by
    rw [answerAt_afterFrames]
    cases f <;> rfl
  have hpoll (j : Nat) : answerAt (afterFirstPoll f v (.done 0 0) s) j = answerAt s (161 + j) :=
    (answerAt_drawn 1 j (afterFrames (writeFuseFrames f v) s)).trans (by rw [hframes]; congr 1; omega)
  refine ⟨fun k hk => hok k (by omega), pollRuns_ready_zero ?_ ?_, fun k hk => ?_, pollRuns_ready_zero ?_ ?_⟩
  · rw [hframes]; exact hok 160 (by omega)
  · rw [hframes]; exact hfirst
  · rw [hpoll]; exact hok (161 + k) (by omega)
  · rw [answerAt_afterFrame, hpoll]; exact hok 201 (by omega)
  · rw [answerAt_afterFrame, hpoll]; exact hsecond

/-- Settles O36: the three commands complete (`rdfuseCompletes`, `rdsigCompletes`, `wrfuseCompletes`), and the events
are those of their frames (`afterFrames_trace`) and of the write (`afterWrite_done_traceGrows`). -/
theorem transactionEventCounts : Obligations.TransactionEventCounts := by
  unfold Obligations.TransactionEventCounts
  refine ⟨fun f s hphase hok hgrant => ?_, fun j s hphase hok hgrant => ?_,
    fun f v s hphase hok hfirst hsecond hgrant => ?_⟩
  · obtain ⟨es, htrace, hlength⟩ := afterFrames_trace (readFuseFrames f) s
    exact ⟨_, es, rdfuseCompletes f s hphase hok hgrant, htrace, hlength.trans (by cases f <;> rfl)⟩
  · obtain ⟨es, htrace, hlength⟩ := afterFrames_trace (readSigFrames j) s
    exact ⟨_, es, rdsigCompletes j s hphase hok hgrant, htrace, hlength⟩
  · have hruns := writeRuns_done_zero (s := { s with timedOut := false }) f v hok hfirst hsecond
    obtain ⟨t, hexec, rfl, -⟩ := wrfuseCompletes f v (.done 0 0) s hphase hruns hgrant
    obtain ⟨es, htrace, hlength, -⟩ := afterWrite_done_traceGrows f v { s with timedOut := false }
    exact ⟨_, es, hexec, htrace, hlength⟩

end Sys2Proof.Machine
end

section
/-! PROOF. A poll without a bound (`41_fuse_signature_ops.md` rules R126, R132): how far it is after any number of the
sequencer's steps, where every sample so far was low. -/

namespace Sys2Proof.Machine

/-- Between `s` and `t` a poll before the statements `p` went on: it has not ended, and only `IN_LAST`, what a poll
counts and what its calls take and record have changed. -/
structure StillPolls (p : List Stmt) (s t : State) : Prop where
  pos : ∃ q, t.pos = q ++ .poll :: p
  only : t = { s with
    inLast := t.inLast, pollN := t.pollN, pos := t.pos, answers := t.answers, draws := t.draws, trace := t.trace }

/-- A poll that goes on takes its next sample, after a delay where there is one. -/
theorem pollAgain_eq (interval : Nat) (p : List Stmt) : ∃ q, pollAgain interval ++ p = q ++ .poll :: p := by
  unfold pollAgain
  split
  · exact ⟨[.delay interval], rfl⟩
  · exact ⟨[], rfl⟩

/-- Without a bound a poll goes on after a low sample. -/
theorem pollSample_low_unbounded {b : Bool} {s : State} (hb : b = false) (hlimit : s.setup.params.pollLimit = none) :
    pollSample b s = { s with pollN := s.pollN + 1, pos := pollAgain s.setup.params.pollIntervalUs ++ s.pos } := by
  simp [pollSample, hb, hlimit, pollLimitReached]

/-- A poll that began at `s`, after `m` steps from its first sample on, where every sample up to then was low: the steps
are whole strides (`pollWait_run`), or whole strides and a sample whose delay is still to come. -/
theorem unbounded_poll_run {s : State} {p : List Stmt} {m : Nat} (hlimit : s.setup.params.pollLimit = none)
    (hlow : ∀ j, j < m + 1 → pollLow s j) :
    ∃ t, advance m { s with pollN := 0, pos := .poll :: p } = t ∧ StillPolls p s t ∧ (0 < m → t.inLast = false) := by
  have hpositive : 0 < pollStride s := by unfold pollStride; split <;> omega
  have hsmall : pollStride s ≤ 2 := by unfold pollStride; split <;> omega
  obtain ⟨k, r, hr, rfl⟩ : ∃ k r, r < pollStride s ∧ m = pollStride s * k + r :=
    ⟨m / pollStride s, m % pollStride s, Nat.mod_lt _ hpositive, (Nat.div_add_mod m _).symm⟩
  have hk : k ≤ pollStride s * k := Nat.le_mul_of_pos_left k hpositive
  have hwait := pollWait_run (s := s) (rest := p) k (fun j hj => hlow j (by omega)) (fun l hl => by simp [hlimit] at hl)
  obtain rfl | rfl : r = 0 ∨ r = 1 := by omega
  · refine ⟨_, hwait, ⟨⟨[], rfl⟩, rfl⟩, fun hm => if_neg ?_⟩
    rintro rfl
    omega
  · obtain ⟨hok, hlevel⟩ := hlow k (by omega)
    obtain ⟨q, hq⟩ := pollAgain_eq s.setup.params.pollIntervalUs p
    have hrun := advance_then hwait ((advance_one rfl).trans
      ((sample_run (s := s) (n := pollStride s * k) rfl rfl hok pollSample).trans
        (pollSample_low_unbounded hlevel hlimit)))
    exact ⟨_, hrun, ⟨⟨q, hq⟩, rfl⟩, fun _ => hlevel⟩

/-- Settles O38: before its first step the poll is about to begin, and from then on it goes on
(`unbounded_poll_run`). -/
theorem unboundedPollNeverEnds : Obligations.UnboundedPollNeverEnds := by
  unfold Obligations.UnboundedPollNeverEnds
  intro s p n hlimit hpos hbusy hlow
  obtain ⟨t, hrun, ⟨hat, honly⟩, hinLast⟩ :
      ∃ t, advance n s = t ∧ StillPolls p s t ∧ (1 < n → t.inLast = false) := by
    cases n with
    | zero => exact ⟨s, rfl, ⟨⟨[.pollStart], hpos⟩, rfl⟩, fun h => absurd h (by omega)⟩
    | succ m =>
      obtain ⟨t, hrun, hstill, hinLast⟩ := unbounded_poll_run (p := p) hlimit hlow
      exact ⟨t, (advance_cons hpos m).trans hrun, hstill, fun h => hinLast (by omega)⟩
  refine ⟨t, hrun, ?_, hat, ?_⟩
  · rw [honly]; exact hbusy
  · rw [honly]
    exact ⟨rfl, rfl, rfl, rfl, rfl, rfl, rfl, rfl, rfl, rfl, rfl, hinLast⟩

end Sys2Proof.Machine
end

section
/-! PROOF. The settle delays: no event of a frame or a poll comes before the data-out line has settled
(`42_session.md` rules R142, R146; `70_reset_and_hazards.md` rule R224). -/

namespace Sys2Proof.Machine

/-! ## Traces that grow -/

theorem settling_append (wanted : Nat) (trace : List Event) (e : Event) :
    settling wanted (trace ++ [e]) = settleBy wanted (settling wanted trace) e := by
  simp [settling]

/-- One more event, which comes in time if it is one of a frame or a poll. -/
theorem settledTrace_append {wanted : Nat} {trace : List Event} {e : Event} (h : settledTrace wanted trace)
    (he : frameEvent e = true → settling wanted trace = .settled) : settledTrace wanted (trace ++ [e]) := by
  intro before f after heq hf
  obtain rfl | ⟨after, g, rfl⟩ := List.eq_nil_or_concat after
  · obtain ⟨rfl, hlast⟩ := List.append_inj' heq rfl
    cases hlast
    exact he hf
  · have heq' : trace ++ [e] = (before ++ f :: after) ++ [g] := by rw [heq]; simp
    exact h before f after (List.append_inj_left' heq' rfl) hf

/-! ## Positions -/

/-- A position that keeps the settle delay does so where the line has settled already. -/
theorem releaseFlow_settled {wanted : Nat} {x : Settling} {l : List Stmt} (h : releaseFlow wanted x l = true) :
    releaseFlow wanted .settled l = true := by
  induction l generalizing x with
  | nil => rfl
  | cons st rest ih =>
    cases st with
    | dir p m => exact h
    | delay n => exact (congrArg (releaseFlow wanted · rest) (if_neg (by simp))).trans (ih h)
    | phase q =>
      cases q with
      | ready =>
        rw [releaseFlow, Bool.and_eq_true] at h ⊢
        exact ⟨rfl, ih h.2⟩
      | _ => exact ih h
    | _ => exact ih h

/-- The statements after one keep the settle delay where the line has settled already. -/
theorem releaseFlow_tail {wanted : Nat} {x : Settling} {st : Stmt} {rest : List Stmt}
    (h : releaseFlow wanted x (st :: rest) = true) : releaseFlow wanted .settled rest = true := by
  cases st with
  | phase q =>
    cases q with
    | ready =>
      rw [releaseFlow, Bool.and_eq_true] at h
      exact releaseFlow_settled h.2
    | _ => exact releaseFlow_settled (x := x) h
  | _ => exact releaseFlow_settled h

/-- The statements that remain once a poll returned TIMEOUT keep the settle delay where the line has settled. -/
theorem releaseFlow_timeoutExit {wanted : Nat} {x : Settling} {l : List Stmt} (h : releaseFlow wanted x l = true) :
    releaseFlow wanted .settled (timeoutExit l) = true := by
  induction l generalizing x with
  | nil => rfl
  | cons st rest ih =>
    cases st with
    | wrote f r => exact releaseFlow_settled (x := x) h
    | _ => exact ih (releaseFlow_tail h)

/-- The statements of a poll that goes on keep the settle delay where the line has settled. -/
theorem releaseFlow_pollAgain {wanted : Nat} {x : Settling} (interval : Nat) {l : List Stmt}
    (h : releaseFlow wanted x l = true) : releaseFlow wanted .settled (pollAgain interval ++ l) = true := by
  unfold pollAgain
  split <;> simpa [releaseFlow] using releaseFlow_settled h

/-- Every command keeps the settle delay: ENTER waits for it before it makes the phase Ready, and no other command makes
it Ready (rule R142). -/
theorem releaseFlow_commandProgram (p : Params) (x : Settling) (i : Instr) :
    releaseFlow p.tSdoReleaseUs x (commandProgram p i) = true := by
  cases i with
  | enter =>
    change releaseFlow _ x (enterProgram p) = true
    simp [enterProgram, releaseFlow]
  | _ => rfl

/-! ## What the invariant of every state says of the next statement -/

/-- The ways a busy block is on. -/
theorem blockInv_ways {s : State} {st : Stmt} {rest : List Stmt} (h : BlockInv s) (hpos : s.pos = st :: rest) :
    sessionFlow s.phase s.out s.dir (st :: rest) = true ∨
    (s.phase = .ready ∧ ∃ d c, readyFlow d c (st :: rest) = true) ∨ matcherFlow (st :: rest) = true := by
  obtain ⟨-, hway⟩ := h
  split at hway
  · rw [hpos] at hway
    obtain hsession | ⟨hphase, -, -, -, hready⟩ | ⟨-, hmatcher⟩ := hway
    · exact .inl hsession
    · exact .inr (.inl ⟨hphase, _, _, hpos ▸ hready⟩)
    · exact .inr (.inr hmatcher)
  · cases hpos.symm.trans hway.1

/-- A statement that only a command in Ready comes to. -/
theorem phase_ready_of_blockInv {s : State} {st : Stmt} {rest : List Stmt} (h : BlockInv s) (hpos : s.pos = st :: rest)
    (hsession : sessionFlow s.phase s.out s.dir (st :: rest) = false) (hmatcher : matcherFlow (st :: rest) = false) :
    s.phase = .ready := by
  obtain h | ⟨hphase, -⟩ | h := blockInv_ways h hpos
  · exact absurd h (by simp [hsession])
  · exact hphase
  · exact absurd h (by simp [hmatcher])

/-- No direction changes in Ready. -/
theorem phase_ne_ready_of_dir {s : State} {p : OnFail} {m : Lines} {rest : List Stmt} (h : BlockInv s)
    (hpos : s.pos = .dir p m :: rest) : s.phase ≠ .ready := by
  obtain h | ⟨-, _, _, h⟩ | h := blockInv_ways h hpos
  · cases p with
    | abort | unavailable =>
      simp only [sessionFlow, Bool.and_eq_true, bne_iff_ne, and_assoc] at h
      exact h.1
    | exitFailed => cases h
  · cases h
  · cases h

/-- No SET of ENTER or EXIT raises the clock. -/
theorem clk_low_of_set {s : State} {p : OnFail} {l : Lines} {rest : List Stmt} (h : BlockInv s)
    (hpos : s.pos = .set p l :: rest) : l.clk = false := by
  obtain h | ⟨-, _, _, h⟩ | h := blockInv_ways h hpos
  · cases p with
    | abort =>
      simp only [sessionFlow, Bool.and_eq_true, Bool.not_eq_true'] at h
      exact h.1
    | exitFailed =>
      simp only [sessionFlow, Bool.and_eq_true, beq_iff_eq] at h
      rw [h.1]
      rfl
    | unavailable => cases h
  · cases h
  · cases h

/-! ## The invariant -/

/-- How far the block's trace has brought the data-out line. -/
def settlingOf (s : State) : Settling := settling s.setup.params.tSdoReleaseUs s.trace

/-- What `SettledInv` says beside `BlockInv`. -/
structure ReleaseInv (s : State) : Prop where
  trace : settledTrace s.setup.params.tSdoReleaseUs s.trace
  ready : s.phase = .ready → settlingOf s = .settled
  flow : releaseFlow s.setup.params.tSdoReleaseUs (settlingOf s) s.pos = true

theorem settledInv_iff {s : State} : SettledInv s ↔ BlockInv s ∧ ReleaseInv s :=
  and_congr_right fun _ => ⟨fun ⟨htrace, hready, hflow⟩ => ⟨htrace, hready, hflow⟩,
    fun ⟨htrace, hready, hflow⟩ => ⟨htrace, hready, hflow⟩⟩

/-- Where nothing is issued, a phase that does not become Ready and a position that keeps the settle delay suffice. -/
theorem ReleaseInv.quiet {s t : State} (h : ReleaseInv s) (hsetup : t.setup = s.setup) (htrace : t.trace = s.trace)
    (hphase : t.phase = .ready → s.phase = .ready)
    (hflow : releaseFlow s.setup.params.tSdoReleaseUs (settlingOf s) t.pos = true) : ReleaseInv t where
  trace := by rw [hsetup, htrace]; exact h.trace
  ready hready := by rw [settlingOf, hsetup, htrace]; exact h.ready (hphase hready)
  flow := by rw [settlingOf, hsetup, htrace]; exact hflow

/-- An event that leaves the data-out line as it is, and comes in time. -/
theorem ReleaseInv.issue {s : State} {e : Event} (h : ReleaseInv s)
    (hkeeps : settleBy s.setup.params.tSdoReleaseUs (settlingOf s) e = settlingOf s)
    (hframe : frameEvent e = true → settlingOf s = .settled) : ReleaseInv (issue e s) := by
  have hsame : settlingOf (Machine.issue e s) = settlingOf s := (settling_append _ _ e).trans hkeeps
  exact ⟨settledTrace_append h.trace hframe, fun hready => hsame.trans (h.ready hready), by rw [hsame]; exact h.flow⟩

/-- The failure of a call leaves no statement that makes the phase Ready. -/
theorem ReleaseInv.raiseFailure {s : State} (h : ReleaseInv s) (p : OnFail) : ReleaseInv (raiseFailure p s) := by
  cases p with
  | abort | exitFailed => exact h.quiet rfl rfl id rfl
  | unavailable => exact h.quiet rfl rfl nofun rfl

/-- A SET whose clock is high only where the data-out line has settled. -/
theorem ReleaseInv.setLines {s : State} {l : Lines} (h : ReleaseInv s) (p : OnFail)
    (hclk : l.clk = true → settlingOf s = .settled) : ReleaseInv (setLines p l s) := by
  have hset (ok : Bool) : ReleaseInv (Machine.issue (.set l ok) { s with out := l }) :=
    ReleaseInv.issue (s := { s with out := l }) ⟨h.trace, h.ready, h.flow⟩ rfl hclk
  obtain ⟨-, heq⟩ | ⟨-, heq⟩ := setLines_cases p l s <;> rw [heq]
  · exact hset true
  · exact (hset false).raiseFailure p

/-- A READ, once the data-out line has settled. -/
theorem ReleaseInv.sample {s : State} {use : Bool → State → State} (h : ReleaseInv s)
    (hsettled : settlingOf s = .settled)
    (huse : ∀ b t, ReleaseInv t → settlingOf t = .settled → ReleaseInv (use b t)) : ReleaseInv (sample use s) := by
  obtain ⟨-, heq⟩ | ⟨-, heq⟩ := sample_cases use s <;> rw [heq]
  · refine huse _ _ ?_ ((settling_append _ _ _).trans hsettled)
    exact ReleaseInv.issue (s := { s with inLast := _ }) ⟨h.trace, h.ready, h.flow⟩ rfl fun _ => hsettled
  · exact (h.issue rfl fun _ => hsettled).raiseFailure .abort

/-- What a poll does with its sample. -/
theorem ReleaseInv.pollSample {s : State} (h : ReleaseInv s) (hsettled : settlingOf s = .settled) (b : Bool) :
    ReleaseInv (pollSample b s) := by
  have hgoes (n : Nat) {p : List Stmt} (hp : releaseFlow s.setup.params.tSdoReleaseUs .settled p = true) :
      ReleaseInv { s with pollN := n, pos := p } := h.quiet rfl rfl id (by rw [hsettled]; exact hp)
  obtain ⟨-, heq⟩ | ⟨-, -, heq⟩ | ⟨-, -, heq⟩ := pollSample_cases b s <;> rw [heq]
  · exact h
  · exact hgoes _ (releaseFlow_timeoutExit h.flow)
  · exact hgoes _ (releaseFlow_pollAgain _ h.flow)

section
variable {s : State} {rest : List Stmt} (htrace : settledTrace s.setup.params.tSdoReleaseUs s.trace)
include htrace

/-- A DIR outside Ready closes or releases the data-out line. -/
theorem releaseInv_dirLines {p : OnFail} {m : Lines} (hphase : s.phase ≠ .ready)
    (hflow : releaseFlow s.setup.params.tSdoReleaseUs (settlingOf s) (.dir p m :: rest) = true) :
    ReleaseInv (dirLines p m { s with pos := rest }) := by
  have hdir (ok : Bool) : settlingOf (issue (.dir m ok) { s with dir := m, pos := rest }) =
      if m = doutIn ∧ ok = true then .released else .closed := settling_append _ _ _
  have hgrows (ok : Bool) : settledTrace s.setup.params.tSdoReleaseUs (s.trace ++ [.dir m ok]) :=
    settledTrace_append htrace nofun
  obtain ⟨-, heq⟩ | ⟨-, heq⟩ := dirLines_cases p m { s with pos := rest } <;> rw [heq]
  · refine ⟨hgrows true, fun h => absurd h hphase, ?_⟩
    simp only [hdir, and_true]
    exact hflow
  · cases p with
    | abort | exitFailed => exact ⟨hgrows false, fun h => absurd h hphase, rfl⟩
    | unavailable => exact ⟨hgrows false, nofun, rfl⟩

/-- A DELAY lasts at least as long as it was asked to, so it settles the data-out line where the position counts on
it. -/
theorem releaseInv_delayFor {n : Nat} (hready : s.phase = .ready → settlingOf s = .settled)
    (hflow : releaseFlow s.setup.params.tSdoReleaseUs (settlingOf s) (.delay n :: rest) = true) :
    ReleaseInv (delayFor n { s with pos := rest }) := by
  have hdelay : settlingOf (delayFor n { s with pos := rest }) =
      if settlingOf s = .released ∧ s.setup.params.tSdoReleaseUs ≤ n + (answerAt s 0).late then .settled
      else settlingOf s := settling_append _ _ _
  refine ⟨settledTrace_append htrace nofun, fun h => ?_, ?_⟩
  · simp [hdelay, hready h]
  · rw [hdelay]
    split
    · exact releaseFlow_tail hflow
    · next hlong =>
      have hshort : ¬(settlingOf s = .released ∧ s.setup.params.tSdoReleaseUs ≤ n) := fun ⟨hx, hn⟩ =>
        hlong ⟨hx, hn.trans (Nat.le_add_right n _)⟩
      rw [releaseFlow, if_neg hshort] at hflow
      exact hflow

end

/-- A statement keeps what the invariant says beside `BlockInv`. -/
theorem releaseInv_runStmt {s : State} {st : Stmt} {rest : List Stmt} (hblock : BlockInv s) (hpos : s.pos = st :: rest)
    (h : ReleaseInv s) : ReleaseInv (runStmt st { s with pos := rest }) := by
  obtain ⟨htrace, hready, hflow⟩ := h
  rw [hpos] at hflow
  have hpopped (hrest : releaseFlow s.setup.params.tSdoReleaseUs (settlingOf s) rest = true) :
      ReleaseInv { s with pos := rest } := ⟨htrace, hready, hrest⟩
  cases st with
  | dir p m => exact releaseInv_dirLines htrace (phase_ne_ready_of_dir hblock hpos) hflow
  | delay n => exact releaseInv_delayFor htrace hready hflow
  | set p l => exact (hpopped hflow).setLines p fun h => by simp [clk_low_of_set hblock hpos] at h
  | driveZero | driveBit => exact (hpopped hflow).setLines .abort nofun
  | clock b => exact (hpopped hflow).setLines .abort fun _ => hready (phase_ready_of_blockInv hblock hpos rfl rfl)
  | sampleBit k =>
    exact (hpopped hflow).sample (hready (phase_ready_of_blockInv hblock hpos rfl rfl))
      fun b t ht _ => ht.quiet rfl rfl id ht.flow
  | poll =>
    exact (hpopped hflow).sample (hready (phase_ready_of_blockInv hblock hpos rfl rfl))
      fun b t ht hsettled => ht.pollSample hsettled b
  | abortSet =>
    exact ReleaseInv.issue (s := { s with pos := rest, out := exitLevels }) ⟨htrace, hready, hflow⟩ rfl nofun
  | phase q =>
    cases q with
    | ready =>
      rw [releaseFlow, Bool.and_eq_true, beq_iff_eq] at hflow
      exact ⟨htrace, fun _ => hflow.1, hflow.2⟩
    | _ => exact ⟨htrace, nofun, hflow⟩
  | finish e => exact ⟨htrace, hready, rfl⟩
  | abortEnd => exact ⟨htrace, nofun, rfl⟩
  | identifyMatch =>
    obtain ⟨m, heq⟩ := identifyMatch_only { s with pos := rest }
    rw [runStmt, heq]
    exact ⟨htrace, hready, hflow⟩
  | identifyDef f =>
    obtain ⟨v, heq⟩ := identifyDef_only f { s with pos := rest }
    rw [runStmt, heq]
    exact ⟨htrace, hready, hflow⟩
  | unlessFoundEnd =>
    obtain heq | heq := unlessFoundEnd_cases { s with pos := rest } <;> rw [runStmt, heq]
    · exact ⟨htrace, hready, hflow⟩
    · exact ⟨htrace, hready, rfl⟩
  | writeExtended =>
    refine ⟨htrace, hready, ?_⟩
    simp only [runStmt, writeExtended, call_pos]
    split <;> exact hflow
  | _ => exact ⟨htrace, hready, hflow⟩

/-! ## The sequencer and the host's turns -/

/-- The sequencer keeps the invariant. -/
theorem settledInv_advance (n : Nat) {s : State} (h : SettledInv s) : SettledInv (advance n s) := by
  refine advance_induction (P := SettledInv) (fun st rest t hpos ht => ?_) n s h
  obtain ⟨hblock, hrelease⟩ := settledInv_iff.mp ht
  exact settledInv_iff.mpr ⟨blockInv_runStmt hpos hblock, releaseInv_runStmt hblock hpos hrelease⟩

/-- Every act of the host keeps what the invariant says beside `BlockInv`: it issues nothing, makes no phase Ready, and
begins commands only. -/
theorem releaseInv_resumes {s u : State} {a : HostAct} (h : ReleaseInv s) (hact : Resumes s a u) : ReleaseInv u := by
  cases hact with
  | wait | dropped | read => exact h.quiet rfl rfl id h.flow
  | command w i hbusy hi =>
    obtain ⟨c, hc⟩ := Option.isSome_iff_exists.mp hi
    rw [startOf_command hc, begin]
    split
    · exact h.quiet rfl rfl id (releaseFlow_commandProgram _ _ i)
    · exact h.quiet rfl rfl id rfl
  | illegal w hbusy => exact h.quiet rfl rfl id rfl
  | waitDone =>
    obtain ⟨turns, seen, hdone⟩ := waitDone_only (takeTurn s)
    rw [hdone]
    exact h.quiet rfl rfl id h.flow
  | reset => exact h.quiet rfl rfl nofun rfl

/-- Settles O57: the host's act keeps the invariant (`releaseInv_resumes`), and so does each statement of the sequencer
after it (`releaseInv_runStmt`): a frame or a poll is in Ready, which ENTER reaches after the settle delay only. -/
theorem settledInvariantKept : Obligations.SettledInvariantKept := by
  unfold Obligations.SettledInvariantKept
  intro s t h hstep
  obtain ⟨n, u, hact, rfl⟩ := step_resumes hstep
  obtain ⟨hblock, hrelease⟩ := settledInv_iff.mp h
  exact settledInv_advance n
    (settledInv_iff.mpr ⟨blockInv_resumes hblock hact, releaseInv_resumes hrelease hact⟩)

end Sys2Proof.Machine
end

section
/-! PROOF. ENTER (`42_session.md` rules R140 to R142): its statements before its end as a way of calls and phases, the
events of the way, and the phase at every point of it. -/

namespace Sys2Proof.Machine

/-! ## Ways

A way is a list of SETs, DIRs, DELAYs and phases. It is run from a state `s`, in which its first call is call n. -/

/-- The statements are a way, and none of its calls fails. -/
def wayPasses (s : State) : Nat → List Stmt → Prop
  | _, [] => True
  | n, .set _ _ :: rest => (answerAt s n).fails = false ∧ wayPasses s (n + 1) rest
  | n, .dir _ _ :: rest => (answerAt s n).fails = false ∧ wayPasses s (n + 1) rest
  | n, .delay _ :: rest => wayPasses s (n + 1) rest
  | n, .phase _ :: rest => wayPasses s n rest
  | _, _ => False

/-- The events of a way that passes. -/
def wayEvents (s : State) : Nat → List Stmt → List Event
  | n, .set _ l :: rest => .set l true :: wayEvents s (n + 1) rest
  | n, .dir _ m :: rest => .dir m true :: wayEvents s (n + 1) rest
  | n, .delay k :: rest => .delay k (k + (answerAt s n).late) :: wayEvents s (n + 1) rest
  | n, _ :: rest => wayEvents s n rest
  | _, [] => []

/-- The phase a way leaves. -/
def wayPhase (q : Phase) : List Stmt → Phase
  | [] => q
  | .phase r :: rest => wayPhase r rest
  | _ :: rest => wayPhase q rest

theorem wayPasses_take {s : State} {n : Nat} {l : List Stmt} (h : wayPasses s n l) (k : Nat) :
    wayPasses s n (l.take k) := by
  induction l generalizing n k with
  | nil => rwa [List.take_nil]
  | cons st l ih =>
    cases k with
    | zero => trivial
    | succ k =>
      cases st with
      | set | dir => exact ⟨h.1, ih h.2 k⟩
      | delay | phase => exact ih h k
      | _ => cases h

/-- A way that passes leaves the registers of the pins as its events do, and its last phase. -/
theorem way_run {s t : State} {n : Nat} {l rest : List Stmt} (ha : t.answers = s.answers.drop n)
    (hd : t.draws = s.draws + (n - s.answers.length)) (hpos : t.pos = l ++ rest) (h : wayPasses s n l) :
    advance l.length t = { t with
      out := lastSet t.out (wayEvents s n l), dir := lastDir t.dir (wayEvents s n l), phase := wayPhase t.phase l
      pos := rest, answers := s.answers.drop (n + (wayEvents s n l).length)
      draws := s.draws + (n + (wayEvents s n l).length - s.answers.length), trace := t.trace ++ wayEvents s n l } := by
  induction l generalizing t n with
  | nil => simp [wayEvents, wayPhase, lastSet, lastDir, ← ha, ← hd, ← hpos.trans (List.nil_append _)]
  | cons st l ih =>
    have hfirst : advance (l.length + 1) t = advance l.length (runStmt st { t with pos := l ++ rest }) :=
      advance_cons hpos _
    rw [List.length_cons, hfirst]
    cases st with
    | set p m =>
      rw [runStmt, setLines_run (t := { t with pos := l ++ rest }) ha hd h.1, ih rfl rfl rfl h.2]
      simp [wayEvents, wayPhase, lastSet, lastDir, Nat.add_assoc, Nat.add_comm 1]
    | dir p m =>
      rw [runStmt, dirLines_run (t := { t with pos := l ++ rest }) ha hd h.1, ih rfl rfl rfl h.2]
      simp [wayEvents, wayPhase, lastSet, lastDir, Nat.add_assoc, Nat.add_comm 1]
    | delay k =>
      rw [runStmt, delayFor_run (t := { t with pos := l ++ rest }) ha hd, ih rfl rfl rfl h]
      simp [wayEvents, wayPhase, lastSet, lastDir, Nat.add_assoc, Nat.add_comm 1]
    | phase q => exact ih (t := { t with pos := l ++ rest, phase := q }) ha hd rfl h
    | _ => cases h

/-! ## The command -/

/-- The statements of ENTER before its end. -/
def enterWay (p : Params) : List Stmt := (enterProgram p).dropLast

theorem startOf_enter {s : State} (hphase : s.phase = .idle) : startOf .enter s =
    { s with pos := enterWay s.setup.params ++ [.finish .ok], timedOut := false } :=
  begin_allowed (enterProgram s.setup.params) (by rw [hphase]; rfl)

section
variable {s : State} (h0 : (answerAt s 0).fails = false) (h1 : (answerAt s 1).fails = false)
  (h3 : (answerAt s 3).fails = false) (h5 : (answerAt s 5).fails = false)
include h0 h1 h3 h5

/-- ENTER's way passes where none of its four calls that can fail does. -/
theorem wayPasses_enterWay (p : Params) : wayPasses s 0 (enterWay p) := ⟨h0, h1, h3, h5, trivial⟩

/-- ENTER after the first n statements of its way. -/
theorem enterWay_run (hphase : s.phase = .idle) {n : Nat} (hn : n ≤ 11) :
    let l := (enterWay s.setup.params).take n
    let es := wayEvents s 0 l
    advance n (startOf .enter s) = { drawn es.length s with
      out := lastSet s.out es, dir := lastDir s.dir es, phase := wayPhase .idle l, timedOut := false
      trace := s.trace ++ es, pos := (enterWay s.setup.params).drop n ++ [.finish .ok] } := by
  intro l es
  have hlength : l.length = n := List.length_take_of_le hn
  have hrun := way_run (s := s) (n := 0)
    (t := { s with pos := enterWay s.setup.params ++ [.finish .ok], timedOut := false })
    (rest := (enterWay s.setup.params).drop n ++ [.finish .ok]) rfl (by simp)
    (by rw [← List.append_assoc, List.take_append_drop]) (wayPasses_take (wayPasses_enterWay h0 h1 h3 h5 _) n)
  rw [hlength, Nat.zero_add] at hrun
  rw [startOf_enter hphase, ← hphase]
  exact hrun

/-- ENTER to its end: its whole way, and the completion. -/
theorem enterProgram_run (hphase : s.phase = .idle) : advance 12 (startOf .enter s) = { drawn 7 s with
    out := hvApplied, dir := doutIn, phase := .ready, timedOut := false
    trace := s.trace ++ wayEvents s 0 (enterWay s.setup.params), err := .ok, busy := false, pos := [] } :=
  advance_then (enterWay_run h0 h1 h3 h5 hphase (Nat.le_refl 11)) (advance_one rfl)

end

/-- Settles O27: ENTER is allowed in Idle, and its statements are its way and the completion (`enterProgram_run`). -/
theorem enterCompletes : Obligations.EnterCompletes := by
  unfold Obligations.EnterCompletes
  intro s hphase h0 h1 h3 h5 hgrant
  exact exec_to_end (enterProgram_run h0 h1 h3 h5 hphase) rfl hgrant

/-- Settles O28: on its way ENTER stands at the phase of its last `PHASE <-` and is busy (`enterWay_run`); after it the
command has completed (`enterProgram_run`). -/
theorem enterPassesPhasesInOrder : Obligations.EnterPassesPhasesInOrder := by
  unfold Obligations.EnterPassesPhasesInOrder
  intro s n hphase hbusy h0 h1 h3 h5
  refine ⟨_, exec_advance .enter { s with grant := n }, ?_⟩
  obtain hn | hn : n ≤ 11 ∨ 12 ≤ n := by omega
  · rw [enterWay_run (s := { s with grant := n }) h0 h1 h3 h5 hphase hn]
    refine ⟨?_, iff_of_true hbusy (by omega)⟩
    interval_cases n <;> rfl
  · rw [advance_to_end (enterProgram_run (s := { s with grant := n }) h0 h1 h3 h5 hphase) rfl hn]
    refine ⟨?_, iff_of_false nofun (by omega)⟩
    simp only [if_neg (show ¬n < 3 by omega), if_neg (show ¬n < 6 by omega), if_neg (show ¬n < 8 by omega),
      if_neg (show ¬n < 11 by omega)]

end Sys2Proof.Machine
end

section
/-! PROOF. The abort, and EXIT whose SET fails (`60_exceptions.md` rules R192, R193; `42_session.md` rules R143,
R148). -/

namespace Sys2Proof.Machine

/-! ## What is known of the lines after a failure -/

/-- After a SET that failed no line is known (rule R231). -/
theorem lineLevel_set_failed (trace : List Event) (l : Lines) (x : Line) :
    lineLevel (trace ++ [.set l false]) x = none := by
  simp [lineLevel, drivenLevels]

/-- The failure an abort follows makes the directions suspect. -/
theorem directions_abortingCall {s : State} {st : Stmt} {e : Event} (he : abortingCall s st = some e)
    (trace : List Event) : directions (trace ++ [e]) = (directions trace).suspected := by
  cases st with
  | set p l | dir p l =>
    cases p with
    | abort => cases he; simp [directions]
    | exitFailed | unavailable => cases he
  | driveZero | driveBit | clock | sampleBit | poll => cases he; simp [directions]
  | _ => cases he

theorem suspected_eq_suspect {d : Directions} (h : d ≠ .undeclared) : d.suspected = .suspect := by
  cases d with
  | undeclared => contradiction
  | suspect | declared => rfl

/-! ## The abort -/

/-- A statement whose call fails, where an abort follows: the pins' registers are as the failed event leaves them, the
statement's own assignment is not made, and the abort's two statements remain. -/
theorem runStmt_abortingCall {s : State} {st : Stmt} {e : Event} (he : abortingCall s st = some e)
    (hfail : (answerAt s 0).fails = true) :
    runStmt st s = raiseFailure .abort (issue e { s with out := lastSet s.out [e], dir := lastDir s.dir [e] }) := by
  cases st with
  | set p l =>
    cases p with
    | abort => cases he; exact setLines_fail .abort l hfail
    | exitFailed | unavailable => cases he
  | dir p m =>
    cases p with
    | abort => cases he; exact dirLines_fail .abort m hfail
    | exitFailed | unavailable => cases he
  | driveZero | driveBit | clock => cases he; exact setLines_fail .abort _ hfail
  | sampleBit | poll => cases he; exact sample_fail _ hfail
  | _ => cases he

/-- The failed call and the abort after it, where `st` is the next statement. -/
theorem abortingCall_run {s : State} {st : Stmt} {p : List Stmt} {e : Event} (hpos : s.pos = st :: p)
    (he : abortingCall s st = some e) (hfail : (answerAt s 0).fails = true) :
    advance 3 s = { drawn 2 s with
      out := exitLevels, dir := lastDir s.dir [e], phase := .idle
      trace := s.trace ++ [e, .set exitLevels (!(answerAt s 1).fails)]
      err := .transportIoFailure, busy := false, pos := [] } := by
  have hfirst := (advance_one hpos).trans
    (runStmt_abortingCall (s := { s with pos := p }) he hfail)
  refine (advance_then hfirst (abort_run (s := s) (n := 1) rfl rfl rfl)).trans ?_
  simp [raiseFailure, issue, drawn]

/-- Settles O32: the failed call and the abort's two statements are `abortingCall_run`; the failure makes the directions
suspect, and the exit SET is the last event. -/
theorem abortIsPrecise : Obligations.AbortIsPrecise := by
  unfold Obligations.AbortIsPrecise
  intro s st p e n rest hturns hn hpos he hfail
  have hrun := abortingCall_run (s := { s with turns := rest, grant := n }) hpos he hfail
  refine ⟨(step_of_wait hturns).trans (congrArg _ (advance_to_end hrun rfl hn)), ?_⟩
  intro tr
  have htr : tr = (s.trace ++ [e]) ++ [.set exitLevels (!(answerAt s 1).fails)] := by simp [tr, exitLevels]
  rw [htr]
  refine ⟨fun hok hdir => ?_, fun hfail' x => ?_⟩
  · have hsuspect : directions (s.trace ++ [e]) = .suspect :=
      (directions_abortingCall he s.trace).trans (suspected_eq_suspect hdir)
    simp only [hok, Bool.not_false, lineLevel_set_suspect hsuspect]
    exact ⟨rfl, rfl, rfl, rfl, rfl⟩
  · rw [hfail']
    exact lineLevel_set_failed _ _ x

/-! ## EXIT -/

theorem startOf_exit {s : State} (hphase : s.phase = .idle ∨ s.phase = .ready) :
    startOf .exit s = { s with pos := exitProgram, timedOut := false } := by
  obtain h | h := hphase <;> exact begin_allowed exitProgram (by rw [h]; rfl)

/-- EXIT whose SET fails goes to the end of the abort, past its exit SET. -/
theorem exitProgram_failed_run {s : State} (hfail : (answerAt s 0).fails = true) :
    advance 2 { s with pos := exitProgram, timedOut := false } = { drawn 1 s with
      out := exitLevels, phase := .idle, timedOut := false, trace := s.trace ++ [.set exitLevels false]
      err := .transportIoFailure, busy := false, pos := [] } := by
  have hset := setLines_fail (s := { s with pos := [.phase .idle, .finish .ok], timedOut := false }) .exitFailed
    exitLevels hfail
  have hfirst := (advance_one (s := { s with pos := exitProgram, timedOut := false }) rfl).trans hset
  exact advance_then (m := 1) hfirst rfl

/-- Settles O31: EXIT is allowed in Idle and Ready, and its failed SET is its last call (`exitProgram_failed_run`). -/
theorem exitFailureIsNotRetried : Obligations.ExitFailureIsNotRetried := by
  unfold Obligations.ExitFailureIsNotRetried
  intro s hphase hfail hgrant
  have hrun := exitProgram_failed_run hfail
  rw [← startOf_exit hphase] at hrun
  exact exec_to_end hrun rfl hgrant

end Sys2Proof.Machine
end

section
/-! PROOF. The Device Matcher (`43_catalog_workflow.md` rules R161 to R166, R176): what the scan finds, the all-zero
signature, the catalogs the construction of the parameters gives, and IDENT to its end. -/

namespace Sys2Proof.Machine

/-! ## The scan -/

/-- Rule R165's comparison, byte by byte. -/
theorem sigMatches_iff (g : Signature) (e : Descriptor) :
    sigMatches g e = true ↔ e.sig0 = g.b0 ∧ e.sig1 = g.b1 ∧ e.sig2 = g.b2 := by
  simp [sigMatches, and_assoc]

/-- The scan of a list whose first entry has the signature ends there. -/
theorem scanFrom_cons_match {g : Signature} {x : Descriptor} (hx : sigMatches g x = true) (k : Nat)
    (l : List Descriptor) : scanFrom g k (x :: l) = some (k, x) := if_pos hx

/-- The scan passes a first entry with another signature. -/
theorem scanFrom_cons_skip {g : Signature} {x : Descriptor} (hx : ¬sigMatches g x = true) (k : Nat)
    (l : List Descriptor) : scanFrom g k (x :: l) = scanFrom g (k + 1) l := if_neg hx

/-- The scan finds nothing exactly where no entry has the signature. -/
theorem scanFrom_eq_none_iff {g : Signature} {k : Nat} {l : List Descriptor} :
    scanFrom g k l = none ↔ ∀ e ∈ l, ¬sigMatches g e = true := by
  induction l generalizing k with
  | nil => simp [scanFrom]
  | cons x l ih =>
    by_cases hx : sigMatches g x = true
    · simp [scanFrom_cons_match hx, hx]
    · rw [scanFrom_cons_skip hx, ih, List.forall_mem_cons, and_iff_right hx]

/-- The scan finds the entry `j` places on exactly where that one has the signature and none before it does. -/
theorem scanFrom_eq_some_iff {g : Signature} {k j : Nat} {l : List Descriptor} {e : Descriptor} :
    scanFrom g k l = some (k + j, e) ↔
      l[j]? = some e ∧ sigMatches g e = true ∧ ∀ i e', i < j → l[i]? = some e' → ¬sigMatches g e' = true := by
  induction l generalizing k j with
  | nil => simp [scanFrom]
  | cons x l ih =>
    by_cases hx : sigMatches g x = true
    · rw [scanFrom_cons_match hx]
      cases j with
      | zero =>
        constructor
        · rintro ⟨⟩
          exact ⟨rfl, hx, fun i _ hi => absurd hi (Nat.not_lt_zero i)⟩
        · rintro ⟨⟨⟩, -, -⟩
          rfl
      | succ j =>
        refine iff_of_false (fun h => ?_) (fun ⟨_, _, hfirst⟩ => hfirst 0 x (Nat.succ_pos j) rfl hx)
        simp at h
    · rw [scanFrom_cons_skip hx]
      cases j with
      | zero =>
        refine iff_of_false (fun h => ?_) ?_
        · obtain ⟨hle, -⟩ := scanFrom_some h
          omega
        · rintro ⟨⟨⟩, he, -⟩
          exact hx he
      | succ j =>
        rw [show k + (j + 1) = k + 1 + j by omega, ih, List.getElem?_cons_succ]
        refine and_congr_right fun _ => and_congr_right fun _ => ⟨fun h i e' hi hget => ?_, fun h i e' hi hget => ?_⟩
        · cases i with
          | zero => cases hget; exact hx
          | succ i => exact h i e' (by omega) hget
        · exact h (i + 1) e' (by omega) hget

/-- For any signature but the all-zero one the matcher's result is the scan's (rule R163). -/
theorem identify_of_ne_zero {g : Signature} (hg : g ≠ { b0 := 0, b1 := 0, b2 := 0 }) (cat : List Descriptor) :
    identify cat g = scanFrom g 0 cat := by
  refine if_neg fun ⟨h0, h1, h2⟩ => hg ?_
  cases g
  cases h0
  cases h1
  cases h2
  rfl

/-- The all-zero signature has no entry (rule R163). -/
theorem identify_zero (cat : List Descriptor) : identify cat { b0 := 0, b1 := 0, b2 := 0 } = none :=
  if_pos ⟨rfl, rfl, rfl⟩

/-- Settles O41: the matcher's result is the scan's, which finds the first entry with the signature
(`scanFrom_eq_some_iff`), or none (`scanFrom_eq_none_iff`). -/
theorem identifyFirstMatch : Obligations.IdentifyFirstMatch := by
  unfold Obligations.IdentifyFirstMatch
  intro cat g k e hg
  simp only [identify_of_ne_zero hg, ← sigMatches_iff]
  have hsome := scanFrom_eq_some_iff (g := g) (k := 0) (j := k) (l := cat) (e := e)
  rw [Nat.zero_add] at hsome
  exact ⟨hsome, scanFrom_eq_none_iff⟩

/-- Settles O42: an entry with the all-zero signature would match it, so in a well-formed catalog the scan finds none
either. -/
theorem zeroSignatureNeverMatches : Obligations.ZeroSignatureNeverMatches := by
  unfold Obligations.ZeroSignatureNeverMatches
  refine ⟨identify_zero, fun c g hc => ?_⟩
  by_cases hg : g = { b0 := 0, b1 := 0, b2 := 0 }
  · subst hg
    have hnone : scanFrom { b0 := 0, b1 := 0, b2 := 0 } 0 c = none := scanFrom_eq_none_iff.mpr fun e he hmatch => by
      have hzero := e.zeroSignature_iff.mpr ((sigMatches_iff _ e).mp hmatch)
      rw [hc e he] at hzero
      cases hzero
    rw [identify_zero, hnone]
  · exact identify_of_ne_zero hg c

/-! ## The open catalog -/

/-- Nothing is left out of entries that have no all-zero signature and are no more than there is room for. -/
theorem take_filter_nonzero {l : List Descriptor} {n : Nat} (hl : ∀ e ∈ l, e.zeroSignature = false)
    (hn : l.length ≤ n) : (l.filter (fun e => !e.zeroSignature)).take n = l := by
  rw [List.filter_eq_self.mpr fun e he => by rw [hl e he]; rfl, List.take_of_length_le hn]

/-- Settles O46: an allowed catalog is the one that its entries before and after the entry of rule R161 give, since none
of them is left out (`take_filter_nonzero`). -/
theorem openCatalogCoversAllowed : Obligations.OpenCatalogCoversAllowed := by
  unfold Obligations.OpenCatalogCoversAllowed
  intro c hsize hzero hhas
  obtain ⟨before, after, rfl⟩ := List.append_of_mem hhas
  rw [List.length_append, List.length_cons] at hsize
  have hbefore : (before.filter (fun e => !e.zeroSignature)).take 15 = before :=
    take_filter_nonzero (fun e he => hzero e (List.mem_append_left _ he)) (by omega)
  have hafter : (after.filter (fun e => !e.zeroSignature)).take (15 - before.length) = after :=
    take_filter_nonzero (fun e he => hzero e (List.mem_append_right _ (List.mem_cons_of_mem _ he))) (by omega)
  exact ⟨before, after, by simp only [Setup.catalogWith, hbefore, hafter]⟩

/-! ## What the matcher writes -/

section
variable {cat : List Descriptor} {g : Signature}

theorem matchOf_some {k : Nat} {e : Descriptor} (h : identify cat g = some (k, e)) :
    matchOf cat g = { done := true, found := true, idx := BitVec.ofNat 4 k } := by simp only [matchOf, h]

theorem matchOf_none (h : identify cat g = none) : matchOf cat g = { done := true, found := false, idx := 0 } := by
  simp only [matchOf, h]

theorem defaultsOf_some {k : Nat} {e : Descriptor} (h : identify cat g = some (k, e)) :
    defaultsOf cat g = { low := e.defL, high := e.defH, ext := e.defE } := by simp only [defaultsOf, h]

theorem defaultsOf_none (h : identify cat g = none) : defaultsOf cat g = { low := 0, high := 0, ext := 0 } := by
  simp only [defaultsOf, h]

/-- `FOUND` is 0 exactly where the matcher finds no entry. -/
theorem matchOf_found_eq_false_iff : (matchOf cat g).found = false ↔ identify cat g = none := by
  cases h : identify cat g with
  | none => simp [matchOf_none h]
  | some r => simp [matchOf_some h]

end

/-! ## IDENT -/

/-- IDENT begins with its statements in any phase. -/
theorem startOf_ident (s : State) : startOf .ident s = { s with pos := identProgram, timedOut := false } :=
  begin_allowed identProgram rfl

/-- The two statements of IDENT: the matcher's writes and the completion, which finds `FOUND`. -/
theorem identProgram_run (s : State) :
    advance 6 { s with pos := identProgram } = { s with
      ident := matchOf (catalogOf s) s.sig, dflt := defaultsOf (catalogOf s) s.sig
      err := if (matchOf (catalogOf s) s.sig).found then .ok else .unknownDevice, busy := false, pos := [] } :=
  advance_then (applyIdentify_run s [.finish .identified]) (advance_one rfl)

/-- Settles O43: IDENT runs its two statements (`identProgram_run`), and the matcher's writes are those of either
result. -/
theorem identCompletes : Obligations.IdentCompletes := by
  unfold Obligations.IdentCompletes
  intro s hgrant
  have hrun := (congrArg (advance 6) (startOf_ident s)).trans (identProgram_run { s with timedOut := false })
  rw [exec_to_end hrun rfl hgrant]
  simp only [catalogOf]
  cases h : identify s.setup.params.catalog s.sig with
  | none => simp [matchOf_none h, defaultsOf_none h]
  | some r => simp [matchOf_some h, defaultsOf_some h]

/-! ## The verify -/

/-- Settles O52: the verify's step is its statement alone, and its two outcomes are those of the comparison. -/
theorem verifyComparesAllBytes : Obligations.VerifyComparesAllBytes := by
  unfold Obligations.VerifyComparesAllBytes
  intro s p rest hturns hpos
  refine ⟨_, (step_of_wait hturns).trans (congrArg _ (advance_one hpos)), rfl, ?_, ?_⟩
  all_goals
    simp only [runStmt, verifyFuses]
    split_ifs with h <;> simp [h]

end Sys2Proof.Machine
end

section
/-! PROOF. READALL and RESTORE to their ends (`43_catalog_workflow.md` rules R167 to R172, R174, R176): the registers
their common part leaves, the end for an unknown device, and the writes and the verify for a known one. -/

namespace Sys2Proof.Machine

/-! ## The common part of READALL and RESTORE -/

/-- The signature that twelve frames return that begin now (rules R167, R168). -/
def signatureRead (s : State) : Signature := { b0 := byteAt s 120, b1 := byteAt s 280, b2 := byteAt s 440 }

/-- The frames of reading the signature and the current FuseSet (rules R167, R168). -/
def surveyFrames : List (Byte × Byte) :=
  (readSigFrames 0 ++ readSigFrames 1 ++ readSigFrames 2) ++
    (readFuseFrames .low ++ readFuseFrames .high ++ readFuseFrames .ext)

/-- The survey leaves what its frames leave, and the registers that keep what they returned. -/
theorem afterSurvey_eq (s : State) : afterSurvey s = { afterFrames surveyFrames s with
    sig := signatureRead s
    cur := { low := byteAt s 560, high := byteAt s 680, ext := byteAt s 800 }
    ident := matchOf s.setup.params.catalog (signatureRead s)
    dflt := defaultsOf s.setup.params.catalog (signatureRead s) } := by
  have hcatalog : catalogOf (afterSignature s) = s.setup.params.catalog :=
    congrArg (fun x : Setup => x.params.catalog) (afterFrames_setup _ s)
  have hfuses : fusesRead (afterSignature s) = { low := byteAt s 560, high := byteAt s 680, ext := byteAt s 800 } := by
    simp only [fusesRead, byteAt_shift (answerAt_afterSignature s)]
  obtain ⟨t, ht⟩ : ∃ t, t = afterFrames (readSigFrames 0 ++ readSigFrames 1 ++ readSigFrames 2) s := ⟨_, rfl⟩
  have hframes := afterFrames_with (readFuseFrames .low ++ readFuseFrames .high ++ readFuseFrames .ext) t t.timedOut
    (signatureRead s) t.cur (defaultsOf s.setup.params.catalog (signatureRead s)) t.ver
    (matchOf s.setup.params.catalog (signatureRead s)) t.wrout t.pos
  rw [ht, ← afterFrames_append] at hframes
  simp only [afterSurvey, hcatalog]
  refine (congrArg (fun u : State => { u with cur := fusesRead (afterSignature s) }) hframes).trans ?_
  simp only [hfuses, afterFrames_timedOut, afterFrames_ver, afterFrames_wrout, afterFrames_pos]
  rfl

/-- The byte in `RESULT` is that of the last frame. -/
theorem afterSurvey_result (s : State) : (afterSurvey s).result = byteAt s 800 := by
  have hlast : surveyFrames = surveyFrames.dropLast ++ [(0x00#8, 0x6E#8)] := rfl
  rw [afterSurvey_eq, hlast]
  exact afterFrames_result _ _ s

/-- The survey issues the events of its 21 frames. -/
theorem afterSurvey_trace (s : State) : ∃ es, (afterSurvey s).trace = s.trace ++ es ∧ es.length = 840 := by
  rw [afterSurvey_eq]
  exact afterFrames_trace surveyFrames s

/-- What the survey leaves: the registers that keep what its frames returned, its events, and the phase and the lines
after it. -/
theorem afterSurvey_read (s : State) :
    let t := afterSurvey s
    t.sig = signatureRead s ∧ t.cur = { low := byteAt s 560, high := byteAt s 680, ext := byteAt s 800 } ∧
    t.ident = matchOf s.setup.params.catalog (signatureRead s) ∧
    t.dflt = defaultsOf s.setup.params.catalog (signatureRead s) ∧ t.result = byteAt s 800 ∧
    (∃ es, t.trace = s.trace ++ es ∧ es.length = 840) ∧ t.phase = s.phase ∧ t.dir = s.dir ∧
    t.out = quiet s.out := by
  obtain ⟨hout, hdir, hphase, -⟩ := afterSurvey_registers s
  refine ⟨?_, ?_, ?_, ?_, afterSurvey_result s, afterSurvey_trace s, hphase, hdir, hout⟩ <;> rw [afterSurvey_eq]

/-- The survey does not complete the command. -/
theorem afterSurvey_err (s : State) : (afterSurvey s).err = s.err := by
  rw [afterSurvey_eq]
  exact afterFrames_err surveyFrames s

/-- What was cleared before the survey does not change its events. -/
theorem afterSurvey_afterClear_trace (s : State) (t : Bool) :
    (afterSurvey (afterClear { s with timedOut := t })).trace = (afterSurvey s).trace := by
  rw [afterSurvey_eq, afterSurvey_eq]
  have hframes := afterFrames_with surveyFrames s t s.sig s.cur { low := 0, high := 0, ext := 0 }
    { low := 0, high := 0, ext := 0 } { done := false, found := false, idx := 0 }
    { wl := .notAttempted, wh := .notAttempted, we := .notAttempted, verify := .notRun } s.pos
  simp only [afterClear, hframes]

/-- The survey that finds no entry leaves `DONE` alone in `MATCH`, and zeros in `DEF` (rule R176). -/
theorem afterSurvey_of_not_found {s : State} (hf : (afterSurvey s).ident.found = false) :
    (afterSurvey s).ident = { done := true, found := false, idx := 0 } ∧
      (afterSurvey s).dflt = { low := 0, high := 0, ext := 0 } := by
  rw [afterSurvey_eq] at hf ⊢
  have hnone := matchOf_found_eq_false_iff.mp hf
  exact ⟨matchOf_none hnone, defaultsOf_none hnone⟩

/-! ## READALL -/

/-- READALL begins with its statements in Ready. -/
theorem startOf_readall {s : State} (hphase : s.phase = .ready) :
    startOf .readall s = { s with pos := readallProgram, timedOut := false } :=
  begin_allowed readallProgram (by rw [hphase]; rfl)

/-- The completion, where it is the statement that remains. -/
theorem finish_run (e : Ending) (s : State) :
    advance 1 { s with pos := [.finish e] } = { s with err := outcomeOf e s, busy := false, pos := [] } := by
  cases e <;> rfl

/-- READALL, where no call fails: the survey, and the completion, which finds `FOUND`. -/
theorem readallProgram_run {s : State} (hok : noFailure 840 s) :
    advance 942 { s with pos := readallProgram } = { afterSurvey s with
      err := if (afterSurvey s).ident.found then .ok else .unknownDevice, busy := false, pos := [] } :=
  advance_then (survey_run (rest := [.finish .identified]) hok) (finish_run .identified _)

/-- Settles O47: in Ready READALL runs its statements (`readallProgram_run`). -/
theorem readallCompletes : Obligations.ReadallCompletes := by
  unfold Obligations.ReadallCompletes
  intro s hphase hok hgrant u
  have hrun := (congrArg (advance 942) (startOf_readall hphase)).trans (readallProgram_run (s := u) hok)
  exact exec_to_end hrun rfl hgrant

/-! ## RESTORE up to its test -/

/-- RESTORE begins with its statements in Ready. -/
theorem startOf_restore {s : State} (hphase : s.phase = .ready) :
    startOf .restore s = { s with pos := restoreProgram, timedOut := false } :=
  begin_allowed restoreProgram (by rw [hphase]; rfl)

/-- RESTORE as far as its test for an unknown device. -/
theorem restore_to_test {s : State} (hphase : s.phase = .ready) (hok : noFailure 840 s) :
    advance 949 (startOf .restore s) =
      { afterSurvey (afterClear { s with timedOut := false }) with pos := restoreRest } := by
  rw [startOf_restore hphase]
  exact restoreSurvey_run (s := { s with timedOut := false }) hok

/-- RESTORE to its end, given how it goes on from its test. -/
theorem restore_to_end {s t : State} {n : Nat} (hphase : s.phase = .ready) (hok : noFailure 840 s)
    (hrest : advance n { afterSurvey (afterClear { s with timedOut := false }) with pos := restoreRest } = t)
    (hpos : t.pos = []) (hn : 949 + n ≤ s.grant) : exec .restore s = .next t :=
  exec_to_end (advance_then (restore_to_test hphase hok) hrest) hpos hn

/-- Settles O48: READALL's end is `readallCompletes` and RESTORE's test `restore_to_test`; both stand where the survey
leaves the bytes of its frames (`afterSurvey_read`). -/
theorem surveyLeavesBytesRead : Obligations.SurveyLeavesBytesRead := by
  unfold Obligations.SurveyLeavesBytesRead
  intro s hphase hok g read
  refine ⟨fun hgrant => ⟨_, readallCompletes s hphase hok hgrant, ?_⟩,
    ⟨_, (exec_advance _ _).trans (congrArg _ (restore_to_test (s := { s with grant := 949 }) hphase hok)), ?_⟩⟩
  · let v := { s with timedOut := false }
    obtain ⟨hsig, hcur, hident, hdflt, hresult, htrace, hready, hdir, hout⟩ := afterSurvey_read v
    obtain ⟨-, -, -, -, -, hver, hwrout, -⟩ := afterSurvey_registers v
    exact ⟨⟨hsig, hcur, hident, hdflt, hresult, htrace, hready.trans hphase, hdir, hout⟩, hver, hwrout, rfl⟩
  · let v := afterClear { s with grant := 949, timedOut := false }
    obtain ⟨hsig, hcur, hident, hdflt, hresult, htrace, hready, hdir, hout⟩ := afterSurvey_read v
    obtain ⟨-, -, -, hbusy, -, hver, hwrout, -⟩ := afterSurvey_registers v
    have herr := afterSurvey_err v
    exact ⟨⟨hsig, hcur, hident, hdflt, hresult, htrace, hready.trans hphase, hdir, hout⟩, hbusy, herr, hver, hwrout,
      rfl⟩

/-! ## RESTORE for an unknown device -/

/-- What RESTORE's survey leaves in the registers it cleared before, and in the local `t`. -/
theorem afterSurvey_cleared (s : State) :
    let u := afterSurvey (afterClear { s with timedOut := false })
    u.timedOut = false ∧
      u.wrout = { wl := .notAttempted, wh := .notAttempted, we := .notAttempted, verify := .notRun } := by
  obtain ⟨-, -, -, -, htimedOut, -, hwrout, -⟩ := afterSurvey_registers (afterClear { s with timedOut := false })
  exact ⟨htimedOut, hwrout⟩

/-- Settles O49: RESTORE ends after its test (`restoreUnknown_run`), with what a survey leaves that finds no entry
(`afterSurvey_of_not_found`). -/
theorem restoreUnknownDevice : Obligations.RestoreUnknownDevice := by
  unfold Obligations.RestoreUnknownDevice
  intro s u hphase hok hf hgrant
  obtain ⟨-, -, hready, -⟩ := afterSurvey_registers (afterClear { s with timedOut := false })
  obtain ⟨-, hcleared⟩ := afterSurvey_cleared s
  obtain ⟨hident, hdflt⟩ := afterSurvey_of_not_found hf
  have hrun := restoreUnknown_run hf
  rw [hcleared] at hrun
  exact ⟨_, restore_to_end hphase hok hrun rfl hgrant, rfl,
    (by decide : wroutByte { wl := .skipped, wh := .skipped, we := .skipped, verify := .notRun } = 0x3F),
    (congrArg matchByte hident).trans (by decide), hdflt, hready.trans hphase, afterSurvey_afterClear_trace s false⟩

/-! ## RESTORE for a known device -/

section
variable (f : Fuse) (v : Byte) (w : WriteRun) (u : State)

theorem afterWrite_wrout : (afterWrite f v w u).wrout = wroutSet u.wrout f (writeOutcome w) := by
  obtain ⟨h, -⟩ := afterWrite_registers f v w u
  exact h

theorem afterWrite_timedOut : (afterWrite f v w u).timedOut = (u.timedOut || writeOutcome w == .timeout) := by
  obtain ⟨-, h, -⟩ := afterWrite_registers f v w u
  exact h

theorem afterWrite_dflt : (afterWrite f v w u).dflt = u.dflt := by
  obtain ⟨-, -, -, -, -, -, -, -, h, -⟩ := afterWrite_registers f v w u
  exact h

end

/-- The default of a fuse written. -/
theorem writeDefault_run {u : State} {rest : List Stmt} {w : WriteRun} {f : Fuse} {v : Byte}
    (hv : fuseGet u.dflt f = v) (hruns : writeRuns f v w u) :
    advance (writeSteps f v w u) { u with pos := .writeDefault f :: rest } = { afterWrite f v w u with pos := rest } :=
  writeFuse_run f v w (by simp only [runStmt, hv]) hruns

/-- The extended fuse written. -/
theorem writeExtended_written {u : State} {rest : List Stmt} {w : WriteRun} {v : Byte} (hv : u.dflt.ext = v)
    (hne : v ≠ 0xFF#8) (hruns : writeRuns .ext v w u) :
    advance (writeSteps .ext v w u) { u with pos := .writeExtended :: rest } =
      { afterWrite .ext v w u with pos := rest } :=
  writeFuse_run .ext v w (by simp only [runStmt, writeExtended, hv, if_neg hne]) hruns

/-- The end of RESTORE: the verify, and the completion, which finds the timeout of a write. -/
theorem restoreVerify_run {u : State} (hok : noFailure 360 u) :
    advance 404 { u with pos := readVerify ++ [.verify, .finish .written] } = { afterVerify u with
      err := if u.timedOut then .writeTimeout else .ok, busy := false, pos := [] } := by
  have htimedOut : (afterVerify u).timedOut = u.timedOut := afterFrames_timedOut _ u
  rw [← htimedOut]
  exact advance_then (verify_run (rest := [.finish .written]) hok) (finish_run .written _)

section
/-! From the test of RESTORE on, for a known device: `u1` is the state after the low byte was written, `u2` after the
high one. -/
variable {u u1 u2 : State} {wL wH : WriteRun} (h1 : u1 = afterWrite .low u.dflt.low wL u)
  (h2 : u2 = afterWrite .high u.dflt.high wH u1) (ht : u.timedOut = false)
include h1 h2 ht

/-- The two writes keep the defaults, and record how they ended. -/
theorem restoreWrites_registers
    (hw : u.wrout = { wl := .notAttempted, wh := .notAttempted, we := .notAttempted, verify := .notRun }) :
    u2.dflt = u.dflt ∧ u2.timedOut = (writeOutcome wL == .timeout || writeOutcome wH == .timeout) ∧
      u2.wrout = { wl := writeOutcome wL, wh := writeOutcome wH, we := .notAttempted, verify := .notRun } := by
  subst h1 h2
  simp only [afterWrite_dflt, afterWrite_timedOut, afterWrite_wrout, ht, hw, Bool.false_or, wroutSet, and_self]

/-- RESTORE for a known device from its test to its end, whichever way its writes end, where `n` steps lead from `u2`
past the extended fuse to `u3`. -/
theorem restoreKnown_run {u3 : State} {n : Nat} (hf : u.ident.found = true) (hL : writeRuns .low u.dflt.low wL u)
    (hH : writeRuns .high u.dflt.high wH u1)
    (hext : ∀ rest, advance n { u2 with pos := .writeExtended :: rest } = { u3 with pos := rest })
    (hverify : noFailure 360 u3) :
    advance (2 + writeSteps .low u.dflt.low wL u + writeSteps .high u.dflt.high wH u1 + n + 404)
        { u with pos := restoreRest } =
      { afterVerify u3 with err := if u3.timedOut then .writeTimeout else .ok, busy := false, pos := [] } := by
  subst h1 h2
  have htest := restoreFound_run hf
  rw [← ht] at htest
  have hlow := advance_then htest (writeDefault_run rfl hL)
  have hdflt := congrArg FuseSet.high (afterWrite_dflt .low u.dflt.low wL u)
  have hhigh := advance_then hlow (writeDefault_run hdflt hH)
  exact advance_then (advance_then hhigh (hext _)) (restoreVerify_run hverify)

end

/-! ## A target that stores what is written -/

/-- The verify of a FuseSet that equals the defaults matches. -/
theorem afterVerify_of_equal {u : State} (h : fusesRead u = u.dflt) :
    (afterVerify u).ver = (afterVerify u).dflt ∧ (afterVerify u).wrout = { u.wrout with verify := .matched } := by
  have hdflt : (afterVerify u).dflt = u.dflt := afterFrames_dflt _ u
  have hwrout : (afterVerify u).wrout =
      { u.wrout with verify := if fusesRead u = u.dflt then .matched else .mismatch } := rfl
  exact ⟨h.trans hdflt.symm, by rw [hwrout, if_pos h]⟩

/-- A target that returned the default for its extended fuse stores the defaults once the two others are written. -/
theorem storedFuses_low_high {c d : FuseSet} (h : c.ext = d.ext) :
    storedFuses c [(.low, d.low), (.high, d.high)] = d := by
  simp only [storedFuses, fuseSet, h]

/-- A target stores the defaults once all three are written. -/
theorem storedFuses_all (c d : FuseSet) : storedFuses c [(.low, d.low), (.high, d.high), (.ext, d.ext)] = d := rfl

/-- Settles O50: RESTORE goes on from its test to its end (`restoreKnown_run`) past the extended fuse, which it skips
(`writeExtended_skipped`). -/
theorem restoreSkipsExtended : Obligations.RestoreSkipsExtended := by
  unfold Obligations.RestoreSkipsExtended
  intro wL wH s u u1 u2 u3 hphase hok hf hext hL hH hverify hgrant
  obtain ⟨ht, hw⟩ := afterSurvey_cleared s
  obtain ⟨hdflt, ht2, hw2⟩ := restoreWrites_registers (u1 := u1) (u2 := u2) rfl rfl ht hw
  have hrun := restoreKnown_run (u1 := u1) (u2 := u2) (u3 := u3) rfl rfl ht hf hL hH
    (fun _ => writeExtended_skipped ((congrArg FuseSet.ext hdflt).trans hext)) hverify
  have herr : (if u3.timedOut then ErrCode.writeTimeout else .ok) =
      if writeOutcome wL = .timeout ∨ writeOutcome wH = .timeout then .writeTimeout else .ok := by
    simp [show u3.timedOut = _ from ht2]
  rw [herr] at hrun
  refine ⟨_, restore_to_end hphase hok hrun rfl (by omega), rfl, fun hdoneL hdoneH hcur hstores => ?_⟩
  have hstored : storedFuses u.cur [(.low, u.dflt.low), (.high, u.dflt.high)] = u.dflt :=
    storedFuses_low_high (hcur.trans hext.symm)
  obtain ⟨hver, hverified⟩ := afterVerify_of_equal (u := u3) ((hstores.trans hstored).trans hdflt.symm)
  exact ⟨hver, hverified.trans (by simp only [u3, hw2, hdoneL, hdoneH]), if_neg (by rw [hdoneL, hdoneH]; decide)⟩

/-- Settles O51: RESTORE goes on from its test to its end (`restoreKnown_run`) past the extended fuse, which it writes
(`writeExtended_written`). -/
theorem restoreWritesAllThree : Obligations.RestoreWritesAllThree := by
  unfold Obligations.RestoreWritesAllThree
  intro wL wH wE s u u1 u2 u3 hphase hok hf hext hL hH hE hverify hgrant
  obtain ⟨ht, hw⟩ := afterSurvey_cleared s
  obtain ⟨hdflt, ht2, hw2⟩ := restoreWrites_registers (u1 := u1) (u2 := u2) rfl rfl ht hw
  have hrun := restoreKnown_run (u1 := u1) (u2 := u2) (u3 := u3) rfl rfl ht hf hL hH
    (fun _ => writeExtended_written (congrArg FuseSet.ext hdflt) hext hE) hverify
  have herr : (if u3.timedOut then ErrCode.writeTimeout else .ok) =
      if writeOutcome wL = .timeout ∨ writeOutcome wH = .timeout ∨ writeOutcome wE = .timeout then .writeTimeout
      else .ok := by
    simp [u3, afterWrite_timedOut, ht2, or_assoc]
  rw [herr] at hrun
  refine ⟨_, restore_to_end hphase hok hrun rfl (by omega), rfl, fun hdoneL hdoneH hdoneE hstores => ?_⟩
  have hdflt3 : u3.dflt = u.dflt := (afterWrite_dflt ..).trans hdflt
  obtain ⟨hver, hverified⟩ :=
    afterVerify_of_equal (u := u3) ((hstores.trans (storedFuses_all u.cur u.dflt)).trans hdflt3.symm)
  exact ⟨hver, hverified.trans (by simp only [u3, afterWrite_wrout, hw2, hdoneL, hdoneH, hdoneE, wroutSet]),
    if_neg (by rw [hdoneL, hdoneH, hdoneE]; decide)⟩

end Sys2Proof.Machine
end

section
/-! PROOF. The outcomes of a command (`60_exceptions.md` rules R190, R191, R196, R197, R200, R201): every step goes on, a
word that is illegal or comes in the wrong phase completes at once, and ENTER whose first call fails. -/

namespace Sys2Proof.Machine

/-! ## Every step goes on -/

/-- Settles O58: a step finds an instruction, whose meaning is an advance of the sequencer (`step_instr`), or is such an
advance itself (`step_proceed`). -/
theorem everyStepGoesOn : Obligations.EveryStepGoesOn := by
  unfold Obligations.EveryStepGoesOn
  intro s
  cases h : fetch s with
  | instr i u => exact ⟨_, step_instr h⟩
  | proceed u => exact ⟨_, step_proceed h⟩

/-! ## Commands that complete at once -/

/-- A completed command stays completed, whatever steps the turn still grants. -/
theorem advance_complete (n : Nat) (e : ErrCode) (s : State) : advance n (complete e s) = complete e s :=
  advance_idle rfl n

/-- A word that stands for no instruction is accepted and completes at once (rules R196, R200). -/
theorem presentWord_illegal {s : State} {w : CmdWord} {r : Reject} (hbusy : s.busy = false)
    (hw : decode w = .error r) : presentWord w s = .proceed (complete .illegalCmd (accept w s)) := by
  simp [presentWord, hbusy, hw, illegalCommand]

/-- Settles O12: the word is accepted and the command completed (`presentWord_illegal`), which leaves the sequencer
nothing to do. -/
theorem illegalWordCompletesAtOnce : Obligations.IllegalWordCompletesAtOnce := by
  unfold Obligations.IllegalWordCompletesAtOnce
  intro s w n rest r hbusy hturns hw
  have hfetch := (fetch_of_cmd hturns).trans
    (presentWord_illegal (s := { s with turns := rest, grant := n }) hbusy hw)
  exact (step_proceed hfetch).trans (congrArg _ (advance_complete ..))

/-- For a command, the block's phase check is rule R197's table. -/
theorem allowedIn_iff_mem_allowedPhases {i : Instr} {w : CmdWord} (hi : commandOf i = some w) (p : Phase) :
    allowedIn p i = true ↔ p ∈ allowedPhases i := by
  cases i with
  | ident => cases p <;> decide
  | enter | exit | frame | rdfuseL | rdfuseH | rdfuseE | rdsig0 | rdsig1 | rdsig2 | wrfuseL | wrfuseH | wrfuseE
  | readall | restore => simp [allowedIn, allowedPhases]
  | _ => cases hi

/-- A command outside the phases of rule R197's table completes at once. -/
theorem exec_refused {i : Instr} {w : CmdWord} {s : State} (hi : commandOf i = some w)
    (hphase : s.phase ∉ allowedPhases i) : exec i s = .next (complete .wrongPhase s) := by
  have hrefused : allowedIn s.phase i = false := by
    rwa [← allowedIn_iff_mem_allowedPhases hi, Bool.not_eq_true] at hphase
  rw [exec_advance, startOf_command hi, begin_refused _ hrefused, advance_complete]

/-- Settles O13: a word decodes to a command (`commandOf_of_decode`), which is accepted and refused by the phase check
(`exec_refused`). -/
theorem wrongPhaseCompletesAtOnce : Obligations.WrongPhaseCompletesAtOnce := by
  unfold Obligations.WrongPhaseCompletesAtOnce
  intro s w n rest i hbusy hturns hw hphase
  obtain ⟨c, hc⟩ := Option.isSome_iff_exists.mp (commandOf_of_decode hw)
  exact (step_of_cmd_decodes hturns hbusy hw).trans (exec_refused hc hphase)

/-! ## ENTER whose first call fails -/

/-- After a DIR that failed no line is known (rule R231). -/
theorem lineLevel_dir_failed (trace : List Event) (m : Lines) (x : Line) :
    lineLevel (trace ++ [.dir m false]) x = none := by
  simp [lineLevel, drivenLevels]

/-- ENTER whose first call fails ends with that call: no exit SET follows (rule R191). -/
theorem enterProgram_failed_run {s : State} (hphase : s.phase = .idle) (hfail : (answerAt s 0).fails = true) :
    advance 1 (startOf .enter s) = { drawn 1 s with
      dir := allOut, phase := .idle, timedOut := false, trace := s.trace ++ [.dir allOut false]
      err := .transportUnavailable, busy := false, pos := [] } := by
  rw [startOf_enter hphase, advance_one rfl]
  exact dirLines_fail .unavailable allOut hfail

/-- Settles O29: in Idle ENTER's first statement is its last (`enterProgram_failed_run`), and no line is known after the
failure (`lineLevel_dir_failed`). -/
theorem enterUnavailable : Obligations.EnterUnavailable := by
  unfold Obligations.EnterUnavailable
  intro s hphase hfail hgrant
  exact ⟨exec_to_end (enterProgram_failed_run hphase hfail) rfl hgrant, lineLevel_dir_failed s.trace _⟩

end Sys2Proof.Machine
end
